-- ==== Sys2Proof/Word.lean ====
section
/-!
DEFINITION. The widths of spec/00_scope.md R7 and R8: bytes, CPU addresses and PPU addresses.
-/

namespace Sys2Proof

/-- A `u8` of the spec (R8): the data width of A, X, Y, SP and P (R7). -/
abbrev Byte := BitVec 8

/-- A `u16` of the spec (R8): the width of PC and of a CPU address (R7). -/
abbrev Addr := BitVec 16

/-- A PPU address: 14 bits (R38, R85). -/
abbrev VAddr := BitVec 14

end Sys2Proof
end

