-- ==== Sys2Proof/Syntax.lean ====
section
/-!
DEFINITION. The instruction set as syntax: one constructor of `Instr` for each of the 256 rows of
spec/opcode_table.json (spec/30_encoding.md R124), the operand forms of the addressing modes
(spec/40_addressing_modes.md) and the table's operation names.
-/

namespace Sys2Proof

/-- An addressing mode with its operand bytes assembled as R122 says. A branch's offset is the signed number
`sext_16(byte)`; every other operand is a byte or an address. -/
inductive Operand where
  | implied
  | accumulator
  | immediate (v : Byte)
  | zeroPage (zp : Byte)
  | zeroPageX (zp : Byte)
  | zeroPageY (zp : Byte)
  | absolute (addr : Addr)
  | absoluteX (base : Addr)
  | absoluteY (base : Addr)
  | indirect (ptr : Addr)
  | indexedIndirectX (zp : Byte)
  | indirectIndexedY (zp : Byte)
  | relative (off : Int)
  deriving DecidableEq, Repr

/-- The modes by name (R120, the table's "format"). -/
inductive Mode where
  | implied
  | accumulator
  | immediate
  | zeroPage
  | zeroPageX
  | zeroPageY
  | absolute
  | absoluteX
  | absoluteY
  | indirect
  | indexedIndirectX
  | indirectIndexedY
  | relative
  deriving DecidableEq, Repr

/-- The operations, by the table's mnemonics. -/
inductive Operation where
  | brk | ora | slo | nop | asl | php | bpl | clc | jsr | and | rla | bit | rol | plp | bmi | sec | rti | eor
  | sre | lsr | pha | jmp | bvc | cli | rts | adc | rra | ror | pla | bvs | sei | sta | sax | sty | stx | dey
  | txa | bcc | tya | txs | ldy | lda | ldx | lax | tay | tax | bcs | clv | tsx | cpy | cmp | dcp | dec | iny
  | dex | bne | cld | cpx | sbc | isb | inc | inx | beq | sed | unsupported
  deriving DecidableEq, Repr

/-- The instructions: those with an operand in the order of their opcode bytes, then those without one (Lean's runtime
has room for about 240 constructors that carry a field). The suffix names the mode; where one mnemonic and mode have
several bytes, and for the 25 unsupported bytes under their conventional names (R125), the byte follows. -/
inductive Instr where
  | oraIndX (zp : Byte)
  | sloIndX (zp : Byte)
  | nopZp04 (zp : Byte)
  | oraZp (zp : Byte)
  | aslZp (zp : Byte)
  | sloZp (zp : Byte)
  | oraImm (v : Byte)
  | nopAbs0C (addr : Addr)
  | oraAbs (addr : Addr)
  | aslAbs (addr : Addr)
  | sloAbs (addr : Addr)
  | bpl (off : Int)
  | oraIndY (zp : Byte)
  | sloIndY (zp : Byte)
  | nopZpX14 (zp : Byte)
  | oraZpX (zp : Byte)
  | aslZpX (zp : Byte)
  | sloZpX (zp : Byte)
  | oraAbsY (addr : Addr)
  | sloAbsY (addr : Addr)
  | nopAbsX1C (addr : Addr)
  | oraAbsX (addr : Addr)
  | aslAbsX (addr : Addr)
  | sloAbsX (addr : Addr)
  | jsr (addr : Addr)
  | andIndX (zp : Byte)
  | rlaIndX (zp : Byte)
  | bitZp (zp : Byte)
  | andZp (zp : Byte)
  | rolZp (zp : Byte)
  | rlaZp (zp : Byte)
  | andImm (v : Byte)
  | bitAbs (addr : Addr)
  | andAbs (addr : Addr)
  | rolAbs (addr : Addr)
  | rlaAbs (addr : Addr)
  | bmi (off : Int)
  | andIndY (zp : Byte)
  | rlaIndY (zp : Byte)
  | nopZpX34 (zp : Byte)
  | andZpX (zp : Byte)
  | rolZpX (zp : Byte)
  | rlaZpX (zp : Byte)
  | andAbsY (addr : Addr)
  | rlaAbsY (addr : Addr)
  | nopAbsX3C (addr : Addr)
  | andAbsX (addr : Addr)
  | rolAbsX (addr : Addr)
  | rlaAbsX (addr : Addr)
  | eorIndX (zp : Byte)
  | sreIndX (zp : Byte)
  | nopZp44 (zp : Byte)
  | eorZp (zp : Byte)
  | lsrZp (zp : Byte)
  | sreZp (zp : Byte)
  | eorImm (v : Byte)
  | jmpAbs (addr : Addr)
  | eorAbs (addr : Addr)
  | lsrAbs (addr : Addr)
  | sreAbs (addr : Addr)
  | bvc (off : Int)
  | eorIndY (zp : Byte)
  | sreIndY (zp : Byte)
  | nopZpX54 (zp : Byte)
  | eorZpX (zp : Byte)
  | lsrZpX (zp : Byte)
  | sreZpX (zp : Byte)
  | eorAbsY (addr : Addr)
  | sreAbsY (addr : Addr)
  | nopAbsX5C (addr : Addr)
  | eorAbsX (addr : Addr)
  | lsrAbsX (addr : Addr)
  | sreAbsX (addr : Addr)
  | adcIndX (zp : Byte)
  | rraIndX (zp : Byte)
  | nopZp64 (zp : Byte)
  | adcZp (zp : Byte)
  | rorZp (zp : Byte)
  | rraZp (zp : Byte)
  | adcImm (v : Byte)
  | jmpInd (ptr : Addr)
  | adcAbs (addr : Addr)
  | rorAbs (addr : Addr)
  | rraAbs (addr : Addr)
  | bvs (off : Int)
  | adcIndY (zp : Byte)
  | rraIndY (zp : Byte)
  | nopZpX74 (zp : Byte)
  | adcZpX (zp : Byte)
  | rorZpX (zp : Byte)
  | rraZpX (zp : Byte)
  | adcAbsY (addr : Addr)
  | rraAbsY (addr : Addr)
  | nopAbsX7C (addr : Addr)
  | adcAbsX (addr : Addr)
  | rorAbsX (addr : Addr)
  | rraAbsX (addr : Addr)
  | nopImm80 (v : Byte)
  | staIndX (zp : Byte)
  | nopImm82 (v : Byte)
  | saxIndX (zp : Byte)
  | styZp (zp : Byte)
  | staZp (zp : Byte)
  | stxZp (zp : Byte)
  | saxZp (zp : Byte)
  | nopImm89 (v : Byte)
  | styAbs (addr : Addr)
  | staAbs (addr : Addr)
  | stxAbs (addr : Addr)
  | saxAbs (addr : Addr)
  | bcc (off : Int)
  | staIndY (zp : Byte)
  | styZpX (zp : Byte)
  | staZpX (zp : Byte)
  | stxZpY (zp : Byte)
  | saxZpY (zp : Byte)
  | staAbsY (addr : Addr)
  | staAbsX (addr : Addr)
  | ldyImm (v : Byte)
  | ldaIndX (zp : Byte)
  | ldxImm (v : Byte)
  | laxIndX (zp : Byte)
  | ldyZp (zp : Byte)
  | ldaZp (zp : Byte)
  | ldxZp (zp : Byte)
  | laxZp (zp : Byte)
  | ldaImm (v : Byte)
  | ldyAbs (addr : Addr)
  | ldaAbs (addr : Addr)
  | ldxAbs (addr : Addr)
  | laxAbs (addr : Addr)
  | bcs (off : Int)
  | ldaIndY (zp : Byte)
  | laxIndY (zp : Byte)
  | ldyZpX (zp : Byte)
  | ldaZpX (zp : Byte)
  | ldxZpY (zp : Byte)
  | laxZpY (zp : Byte)
  | ldaAbsY (addr : Addr)
  | ldyAbsX (addr : Addr)
  | ldaAbsX (addr : Addr)
  | ldxAbsY (addr : Addr)
  | laxAbsY (addr : Addr)
  | cpyImm (v : Byte)
  | cmpIndX (zp : Byte)
  | nopImmC2 (v : Byte)
  | dcpIndX (zp : Byte)
  | cpyZp (zp : Byte)
  | cmpZp (zp : Byte)
  | decZp (zp : Byte)
  | dcpZp (zp : Byte)
  | cmpImm (v : Byte)
  | cpyAbs (addr : Addr)
  | cmpAbs (addr : Addr)
  | decAbs (addr : Addr)
  | dcpAbs (addr : Addr)
  | bne (off : Int)
  | cmpIndY (zp : Byte)
  | dcpIndY (zp : Byte)
  | nopZpXD4 (zp : Byte)
  | cmpZpX (zp : Byte)
  | decZpX (zp : Byte)
  | dcpZpX (zp : Byte)
  | cmpAbsY (addr : Addr)
  | dcpAbsY (addr : Addr)
  | nopAbsXDC (addr : Addr)
  | cmpAbsX (addr : Addr)
  | decAbsX (addr : Addr)
  | dcpAbsX (addr : Addr)
  | cpxImm (v : Byte)
  | sbcIndX (zp : Byte)
  | nopImmE2 (v : Byte)
  | isbIndX (zp : Byte)
  | cpxZp (zp : Byte)
  | sbcZp (zp : Byte)
  | incZp (zp : Byte)
  | isbZp (zp : Byte)
  | sbcImm (v : Byte)
  | sbcImmEB (v : Byte)
  | cpxAbs (addr : Addr)
  | sbcAbs (addr : Addr)
  | incAbs (addr : Addr)
  | isbAbs (addr : Addr)
  | beq (off : Int)
  | sbcIndY (zp : Byte)
  | isbIndY (zp : Byte)
  | nopZpXF4 (zp : Byte)
  | sbcZpX (zp : Byte)
  | incZpX (zp : Byte)
  | isbZpX (zp : Byte)
  | sbcAbsY (addr : Addr)
  | isbAbsY (addr : Addr)
  | nopAbsXFC (addr : Addr)
  | sbcAbsX (addr : Addr)
  | incAbsX (addr : Addr)
  | isbAbsX (addr : Addr)
  | brk
  | jam02
  | php
  | aslAcc
  | anc0B
  | jam12
  | clc
  | nop1A
  | jam22
  | plp
  | rolAcc
  | anc2B
  | jam32
  | sec
  | nop3A
  | rti
  | jam42
  | pha
  | lsrAcc
  | alr4B
  | jam52
  | cli
  | nop5A
  | rts
  | jam62
  | pla
  | rorAcc
  | arr6B
  | jam72
  | sei
  | nop7A
  | dey
  | txa
  | ane8B
  | jam92
  | sha93
  | tya
  | txs
  | tas9B
  | shy9C
  | shx9E
  | sha9F
  | tay
  | tax
  | lxaAB
  | jamB2
  | clv
  | tsx
  | lasBB
  | iny
  | dex
  | sbxCB
  | jamD2
  | cld
  | nopDA
  | inx
  | nop
  | jamF2
  | sed
  | nopFA
  deriving DecidableEq, Repr

end Sys2Proof
end

