-- ==== Sys2Proof/WellFormed.lean ====
section
/-!
DEFINITION. Which terms of `Instr` are instructions. Bytes and addresses are fixed-width bit vectors, so every value of
theirs is encodable; the one field a term can get wrong is a branch's offset, which must fit the signed operand byte
(spec/30_encoding.md R122 `rel8`).
-/

namespace Sys2Proof

/-- The range of a signed byte. -/
def offsetFits (off : Int) : Bool := decide (-128 ≤ off) && decide (off ≤ 127)

/-- Every constructor is named, so that a new one cannot slip past. -/
def Instr.wf : Instr → Bool
  | .bpl off => offsetFits off
  | .bmi off => offsetFits off
  | .bvc off => offsetFits off
  | .bvs off => offsetFits off
  | .bcc off => offsetFits off
  | .bcs off => offsetFits off
  | .bne off => offsetFits off
  | .beq off => offsetFits off
  | .brk | .oraIndX _ | .jam02 | .sloIndX _ | .nopZp04 _ | .oraZp _ | .aslZp _ | .sloZp _ | .php | .oraImm _
  | .aslAcc | .anc0B | .nopAbs0C _ | .oraAbs _ | .aslAbs _ | .sloAbs _ | .oraIndY _ | .jam12 | .sloIndY _
  | .nopZpX14 _ | .oraZpX _ | .aslZpX _ | .sloZpX _ | .clc | .oraAbsY _ | .nop1A | .sloAbsY _ | .nopAbsX1C _
  | .oraAbsX _ | .aslAbsX _ | .sloAbsX _ | .jsr _ | .andIndX _ | .jam22 | .rlaIndX _ | .bitZp _ | .andZp _
  | .rolZp _ | .rlaZp _ | .plp | .andImm _ | .rolAcc | .anc2B | .bitAbs _ | .andAbs _ | .rolAbs _ | .rlaAbs _
  | .andIndY _ | .jam32 | .rlaIndY _ | .nopZpX34 _ | .andZpX _ | .rolZpX _ | .rlaZpX _ | .sec | .andAbsY _
  | .nop3A | .rlaAbsY _ | .nopAbsX3C _ | .andAbsX _ | .rolAbsX _ | .rlaAbsX _ | .rti | .eorIndX _ | .jam42
  | .sreIndX _ | .nopZp44 _ | .eorZp _ | .lsrZp _ | .sreZp _ | .pha | .eorImm _ | .lsrAcc | .alr4B | .jmpAbs _
  | .eorAbs _ | .lsrAbs _ | .sreAbs _ | .eorIndY _ | .jam52 | .sreIndY _ | .nopZpX54 _ | .eorZpX _ | .lsrZpX _
  | .sreZpX _ | .cli | .eorAbsY _ | .nop5A | .sreAbsY _ | .nopAbsX5C _ | .eorAbsX _ | .lsrAbsX _ | .sreAbsX _
  | .rts | .adcIndX _ | .jam62 | .rraIndX _ | .nopZp64 _ | .adcZp _ | .rorZp _ | .rraZp _ | .pla | .adcImm _
  | .rorAcc | .arr6B | .jmpInd _ | .adcAbs _ | .rorAbs _ | .rraAbs _ | .adcIndY _ | .jam72 | .rraIndY _
  | .nopZpX74 _ | .adcZpX _ | .rorZpX _ | .rraZpX _ | .sei | .adcAbsY _ | .nop7A | .rraAbsY _ | .nopAbsX7C _
  | .adcAbsX _ | .rorAbsX _ | .rraAbsX _ | .nopImm80 _ | .staIndX _ | .nopImm82 _ | .saxIndX _ | .styZp _
  | .staZp _ | .stxZp _ | .saxZp _ | .dey | .nopImm89 _ | .txa | .ane8B | .styAbs _ | .staAbs _ | .stxAbs _
  | .saxAbs _ | .staIndY _ | .jam92 | .sha93 | .styZpX _ | .staZpX _ | .stxZpY _ | .saxZpY _ | .tya
  | .staAbsY _ | .txs | .tas9B | .shy9C | .staAbsX _ | .shx9E | .sha9F | .ldyImm _ | .ldaIndX _ | .ldxImm _
  | .laxIndX _ | .ldyZp _ | .ldaZp _ | .ldxZp _ | .laxZp _ | .tay | .ldaImm _ | .tax | .lxaAB | .ldyAbs _
  | .ldaAbs _ | .ldxAbs _ | .laxAbs _ | .ldaIndY _ | .jamB2 | .laxIndY _ | .ldyZpX _ | .ldaZpX _ | .ldxZpY _
  | .laxZpY _ | .clv | .ldaAbsY _ | .tsx | .lasBB | .ldyAbsX _ | .ldaAbsX _ | .ldxAbsY _ | .laxAbsY _
  | .cpyImm _ | .cmpIndX _ | .nopImmC2 _ | .dcpIndX _ | .cpyZp _ | .cmpZp _ | .decZp _ | .dcpZp _ | .iny
  | .cmpImm _ | .dex | .sbxCB | .cpyAbs _ | .cmpAbs _ | .decAbs _ | .dcpAbs _ | .cmpIndY _ | .jamD2
  | .dcpIndY _ | .nopZpXD4 _ | .cmpZpX _ | .decZpX _ | .dcpZpX _ | .cld | .cmpAbsY _ | .nopDA | .dcpAbsY _
  | .nopAbsXDC _ | .cmpAbsX _ | .decAbsX _ | .dcpAbsX _ | .cpxImm _ | .sbcIndX _ | .nopImmE2 _ | .isbIndX _
  | .cpxZp _ | .sbcZp _ | .incZp _ | .isbZp _ | .inx | .sbcImm _ | .nop | .sbcImmEB _ | .cpxAbs _ | .sbcAbs _
  | .incAbs _ | .isbAbs _ | .sbcIndY _ | .jamF2 | .isbIndY _ | .nopZpXF4 _ | .sbcZpX _ | .incZpX _ | .isbZpX _
  | .sed | .sbcAbsY _ | .nopFA | .isbAbsY _ | .nopAbsXFC _ | .sbcAbsX _ | .incAbsX _ | .isbAbsX _ => true

end Sys2Proof
end

