-- ==== Sys2Proof/Decode.lean ====
section
/-!
DEFINITION. The opcode map (spec/30_encoding.md R123, R124) read both ways: decoding, total over every opcode byte, and
encoding, written from the same table. A byte list that ends before the instruction does is rejected by name; no
opcode byte is (the 25 unsupported bytes have entries, which the machine refuses, R125).
-/

namespace Sys2Proof

/-! ## Byte order and operand fields -/

/-- The 16-bit value `(hi << 8) | lo`. -/
def joinBytes (hi lo : Byte) : Addr := hi ++ lo

/-- Bits 15:8. -/
def hiByte (w : Addr) : Byte := (w >>> 8).setWidth 8

/-- Bits 7:0. -/
def loByte (w : Addr) : Byte := w.setWidth 8

/-- `sext_16(rel8)` as a number (R122). -/
def signedOffset (b : Byte) : Int := b.toInt

/-- The operand byte of a branch. -/
def offsetByte (off : Int) : Byte := BitVec.ofInt 8 off

/-! ## The opcode map -/

/-- Bytes 0x00 .. 0x0F of R124; `lo` is the first operand byte, `w` the two as one address. -/
def opcodeRow0 (lo : Byte) (w : Addr) : List Instr :=
  [.brk, .oraIndX lo, .jam02, .sloIndX lo, .nopZp04 lo, .oraZp lo, .aslZp lo, .sloZp lo, .php, .oraImm lo,
   .aslAcc, .anc0B, .nopAbs0C w, .oraAbs w, .aslAbs w, .sloAbs w]

/-- Bytes 0x10 .. 0x1F of R124; `lo` is the first operand byte, `w` the two as one address. -/
def opcodeRow1 (lo : Byte) (w : Addr) : List Instr :=
  [.bpl (signedOffset lo), .oraIndY lo, .jam12, .sloIndY lo, .nopZpX14 lo, .oraZpX lo, .aslZpX lo,
   .sloZpX lo, .clc, .oraAbsY w, .nop1A, .sloAbsY w, .nopAbsX1C w, .oraAbsX w, .aslAbsX w, .sloAbsX w]

/-- Bytes 0x20 .. 0x2F of R124; `lo` is the first operand byte, `w` the two as one address. -/
def opcodeRow2 (lo : Byte) (w : Addr) : List Instr :=
  [.jsr w, .andIndX lo, .jam22, .rlaIndX lo, .bitZp lo, .andZp lo, .rolZp lo, .rlaZp lo, .plp, .andImm lo,
   .rolAcc, .anc2B, .bitAbs w, .andAbs w, .rolAbs w, .rlaAbs w]

/-- Bytes 0x30 .. 0x3F of R124; `lo` is the first operand byte, `w` the two as one address. -/
def opcodeRow3 (lo : Byte) (w : Addr) : List Instr :=
  [.bmi (signedOffset lo), .andIndY lo, .jam32, .rlaIndY lo, .nopZpX34 lo, .andZpX lo, .rolZpX lo,
   .rlaZpX lo, .sec, .andAbsY w, .nop3A, .rlaAbsY w, .nopAbsX3C w, .andAbsX w, .rolAbsX w, .rlaAbsX w]

/-- Bytes 0x40 .. 0x4F of R124; `lo` is the first operand byte, `w` the two as one address. -/
def opcodeRow4 (lo : Byte) (w : Addr) : List Instr :=
  [.rti, .eorIndX lo, .jam42, .sreIndX lo, .nopZp44 lo, .eorZp lo, .lsrZp lo, .sreZp lo, .pha, .eorImm lo,
   .lsrAcc, .alr4B, .jmpAbs w, .eorAbs w, .lsrAbs w, .sreAbs w]

/-- Bytes 0x50 .. 0x5F of R124; `lo` is the first operand byte, `w` the two as one address. -/
def opcodeRow5 (lo : Byte) (w : Addr) : List Instr :=
  [.bvc (signedOffset lo), .eorIndY lo, .jam52, .sreIndY lo, .nopZpX54 lo, .eorZpX lo, .lsrZpX lo,
   .sreZpX lo, .cli, .eorAbsY w, .nop5A, .sreAbsY w, .nopAbsX5C w, .eorAbsX w, .lsrAbsX w, .sreAbsX w]

/-- Bytes 0x60 .. 0x6F of R124; `lo` is the first operand byte, `w` the two as one address. -/
def opcodeRow6 (lo : Byte) (w : Addr) : List Instr :=
  [.rts, .adcIndX lo, .jam62, .rraIndX lo, .nopZp64 lo, .adcZp lo, .rorZp lo, .rraZp lo, .pla, .adcImm lo,
   .rorAcc, .arr6B, .jmpInd w, .adcAbs w, .rorAbs w, .rraAbs w]

/-- Bytes 0x70 .. 0x7F of R124; `lo` is the first operand byte, `w` the two as one address. -/
def opcodeRow7 (lo : Byte) (w : Addr) : List Instr :=
  [.bvs (signedOffset lo), .adcIndY lo, .jam72, .rraIndY lo, .nopZpX74 lo, .adcZpX lo, .rorZpX lo,
   .rraZpX lo, .sei, .adcAbsY w, .nop7A, .rraAbsY w, .nopAbsX7C w, .adcAbsX w, .rorAbsX w, .rraAbsX w]

/-- Bytes 0x80 .. 0x8F of R124; `lo` is the first operand byte, `w` the two as one address. -/
def opcodeRow8 (lo : Byte) (w : Addr) : List Instr :=
  [.nopImm80 lo, .staIndX lo, .nopImm82 lo, .saxIndX lo, .styZp lo, .staZp lo, .stxZp lo, .saxZp lo, .dey,
   .nopImm89 lo, .txa, .ane8B, .styAbs w, .staAbs w, .stxAbs w, .saxAbs w]

/-- Bytes 0x90 .. 0x9F of R124; `lo` is the first operand byte, `w` the two as one address. -/
def opcodeRow9 (lo : Byte) (w : Addr) : List Instr :=
  [.bcc (signedOffset lo), .staIndY lo, .jam92, .sha93, .styZpX lo, .staZpX lo, .stxZpY lo, .saxZpY lo,
   .tya, .staAbsY w, .txs, .tas9B, .shy9C, .staAbsX w, .shx9E, .sha9F]

/-- Bytes 0xA0 .. 0xAF of R124; `lo` is the first operand byte, `w` the two as one address. -/
def opcodeRowA (lo : Byte) (w : Addr) : List Instr :=
  [.ldyImm lo, .ldaIndX lo, .ldxImm lo, .laxIndX lo, .ldyZp lo, .ldaZp lo, .ldxZp lo, .laxZp lo, .tay,
   .ldaImm lo, .tax, .lxaAB, .ldyAbs w, .ldaAbs w, .ldxAbs w, .laxAbs w]

/-- Bytes 0xB0 .. 0xBF of R124; `lo` is the first operand byte, `w` the two as one address. -/
def opcodeRowB (lo : Byte) (w : Addr) : List Instr :=
  [.bcs (signedOffset lo), .ldaIndY lo, .jamB2, .laxIndY lo, .ldyZpX lo, .ldaZpX lo, .ldxZpY lo, .laxZpY lo,
   .clv, .ldaAbsY w, .tsx, .lasBB, .ldyAbsX w, .ldaAbsX w, .ldxAbsY w, .laxAbsY w]

/-- Bytes 0xC0 .. 0xCF of R124; `lo` is the first operand byte, `w` the two as one address. -/
def opcodeRowC (lo : Byte) (w : Addr) : List Instr :=
  [.cpyImm lo, .cmpIndX lo, .nopImmC2 lo, .dcpIndX lo, .cpyZp lo, .cmpZp lo, .decZp lo, .dcpZp lo, .iny,
   .cmpImm lo, .dex, .sbxCB, .cpyAbs w, .cmpAbs w, .decAbs w, .dcpAbs w]

/-- Bytes 0xD0 .. 0xDF of R124; `lo` is the first operand byte, `w` the two as one address. -/
def opcodeRowD (lo : Byte) (w : Addr) : List Instr :=
  [.bne (signedOffset lo), .cmpIndY lo, .jamD2, .dcpIndY lo, .nopZpXD4 lo, .cmpZpX lo, .decZpX lo,
   .dcpZpX lo, .cld, .cmpAbsY w, .nopDA, .dcpAbsY w, .nopAbsXDC w, .cmpAbsX w, .decAbsX w, .dcpAbsX w]

/-- Bytes 0xE0 .. 0xEF of R124; `lo` is the first operand byte, `w` the two as one address. -/
def opcodeRowE (lo : Byte) (w : Addr) : List Instr :=
  [.cpxImm lo, .sbcIndX lo, .nopImmE2 lo, .isbIndX lo, .cpxZp lo, .sbcZp lo, .incZp lo, .isbZp lo, .inx,
   .sbcImm lo, .nop, .sbcImmEB lo, .cpxAbs w, .sbcAbs w, .incAbs w, .isbAbs w]

/-- Bytes 0xF0 .. 0xFF of R124; `lo` is the first operand byte, `w` the two as one address. -/
def opcodeRowF (lo : Byte) (w : Addr) : List Instr :=
  [.beq (signedOffset lo), .sbcIndY lo, .jamF2, .isbIndY lo, .nopZpXF4 lo, .sbcZpX lo, .incZpX lo,
   .isbZpX lo, .sed, .sbcAbsY w, .nopFA, .isbAbsY w, .nopAbsXFC w, .sbcAbsX w, .incAbsX w, .isbAbsX w]

/-- The 256 entries: the rows of R124 by high nibble, each by low nibble. -/
def opcodeMap (lo : Byte) (w : Addr) : List (List Instr) :=
  [opcodeRow0 lo w, opcodeRow1 lo w, opcodeRow2 lo w, opcodeRow3 lo w,
   opcodeRow4 lo w, opcodeRow5 lo w, opcodeRow6 lo w, opcodeRow7 lo w,
   opcodeRow8 lo w, opcodeRow9 lo w, opcodeRowA lo w, opcodeRowB lo w,
   opcodeRowC lo w, opcodeRowD lo w, opcodeRowE lo w, opcodeRowF lo w]

/-- "every opcode byte has exactly one entry" (R123): sixteen rows of sixteen. -/
theorem opcodeMap_lengths (lo : Byte) (w : Addr) :
    (opcodeMap lo w).map List.length = List.replicate 16 16 := rfl

/-- `TABLE[opcode]` with its operand bytes; an entry ignores the bytes past its length. The lookup is on the whole byte
(R121). No byte is outside the map (`opcodeMap_lengths`); the lookup's default would be an entry that refuses. -/
def decodeOp (op lo hi : Byte) : Instr :=
  ((opcodeMap lo (joinBytes hi lo)).getD (op.toNat / 16) []).getD (op.toNat % 16) .jam02

/-- The opcode byte of each instruction (the table's "match"). -/
def Instr.opcode : Instr → Byte
  | .brk => 0x00
  | .oraIndX _ => 0x01
  | .jam02 => 0x02
  | .sloIndX _ => 0x03
  | .nopZp04 _ => 0x04
  | .oraZp _ => 0x05
  | .aslZp _ => 0x06
  | .sloZp _ => 0x07
  | .php => 0x08
  | .oraImm _ => 0x09
  | .aslAcc => 0x0A
  | .anc0B => 0x0B
  | .nopAbs0C _ => 0x0C
  | .oraAbs _ => 0x0D
  | .aslAbs _ => 0x0E
  | .sloAbs _ => 0x0F
  | .bpl _ => 0x10
  | .oraIndY _ => 0x11
  | .jam12 => 0x12
  | .sloIndY _ => 0x13
  | .nopZpX14 _ => 0x14
  | .oraZpX _ => 0x15
  | .aslZpX _ => 0x16
  | .sloZpX _ => 0x17
  | .clc => 0x18
  | .oraAbsY _ => 0x19
  | .nop1A => 0x1A
  | .sloAbsY _ => 0x1B
  | .nopAbsX1C _ => 0x1C
  | .oraAbsX _ => 0x1D
  | .aslAbsX _ => 0x1E
  | .sloAbsX _ => 0x1F
  | .jsr _ => 0x20
  | .andIndX _ => 0x21
  | .jam22 => 0x22
  | .rlaIndX _ => 0x23
  | .bitZp _ => 0x24
  | .andZp _ => 0x25
  | .rolZp _ => 0x26
  | .rlaZp _ => 0x27
  | .plp => 0x28
  | .andImm _ => 0x29
  | .rolAcc => 0x2A
  | .anc2B => 0x2B
  | .bitAbs _ => 0x2C
  | .andAbs _ => 0x2D
  | .rolAbs _ => 0x2E
  | .rlaAbs _ => 0x2F
  | .bmi _ => 0x30
  | .andIndY _ => 0x31
  | .jam32 => 0x32
  | .rlaIndY _ => 0x33
  | .nopZpX34 _ => 0x34
  | .andZpX _ => 0x35
  | .rolZpX _ => 0x36
  | .rlaZpX _ => 0x37
  | .sec => 0x38
  | .andAbsY _ => 0x39
  | .nop3A => 0x3A
  | .rlaAbsY _ => 0x3B
  | .nopAbsX3C _ => 0x3C
  | .andAbsX _ => 0x3D
  | .rolAbsX _ => 0x3E
  | .rlaAbsX _ => 0x3F
  | .rti => 0x40
  | .eorIndX _ => 0x41
  | .jam42 => 0x42
  | .sreIndX _ => 0x43
  | .nopZp44 _ => 0x44
  | .eorZp _ => 0x45
  | .lsrZp _ => 0x46
  | .sreZp _ => 0x47
  | .pha => 0x48
  | .eorImm _ => 0x49
  | .lsrAcc => 0x4A
  | .alr4B => 0x4B
  | .jmpAbs _ => 0x4C
  | .eorAbs _ => 0x4D
  | .lsrAbs _ => 0x4E
  | .sreAbs _ => 0x4F
  | .bvc _ => 0x50
  | .eorIndY _ => 0x51
  | .jam52 => 0x52
  | .sreIndY _ => 0x53
  | .nopZpX54 _ => 0x54
  | .eorZpX _ => 0x55
  | .lsrZpX _ => 0x56
  | .sreZpX _ => 0x57
  | .cli => 0x58
  | .eorAbsY _ => 0x59
  | .nop5A => 0x5A
  | .sreAbsY _ => 0x5B
  | .nopAbsX5C _ => 0x5C
  | .eorAbsX _ => 0x5D
  | .lsrAbsX _ => 0x5E
  | .sreAbsX _ => 0x5F
  | .rts => 0x60
  | .adcIndX _ => 0x61
  | .jam62 => 0x62
  | .rraIndX _ => 0x63
  | .nopZp64 _ => 0x64
  | .adcZp _ => 0x65
  | .rorZp _ => 0x66
  | .rraZp _ => 0x67
  | .pla => 0x68
  | .adcImm _ => 0x69
  | .rorAcc => 0x6A
  | .arr6B => 0x6B
  | .jmpInd _ => 0x6C
  | .adcAbs _ => 0x6D
  | .rorAbs _ => 0x6E
  | .rraAbs _ => 0x6F
  | .bvs _ => 0x70
  | .adcIndY _ => 0x71
  | .jam72 => 0x72
  | .rraIndY _ => 0x73
  | .nopZpX74 _ => 0x74
  | .adcZpX _ => 0x75
  | .rorZpX _ => 0x76
  | .rraZpX _ => 0x77
  | .sei => 0x78
  | .adcAbsY _ => 0x79
  | .nop7A => 0x7A
  | .rraAbsY _ => 0x7B
  | .nopAbsX7C _ => 0x7C
  | .adcAbsX _ => 0x7D
  | .rorAbsX _ => 0x7E
  | .rraAbsX _ => 0x7F
  | .nopImm80 _ => 0x80
  | .staIndX _ => 0x81
  | .nopImm82 _ => 0x82
  | .saxIndX _ => 0x83
  | .styZp _ => 0x84
  | .staZp _ => 0x85
  | .stxZp _ => 0x86
  | .saxZp _ => 0x87
  | .dey => 0x88
  | .nopImm89 _ => 0x89
  | .txa => 0x8A
  | .ane8B => 0x8B
  | .styAbs _ => 0x8C
  | .staAbs _ => 0x8D
  | .stxAbs _ => 0x8E
  | .saxAbs _ => 0x8F
  | .bcc _ => 0x90
  | .staIndY _ => 0x91
  | .jam92 => 0x92
  | .sha93 => 0x93
  | .styZpX _ => 0x94
  | .staZpX _ => 0x95
  | .stxZpY _ => 0x96
  | .saxZpY _ => 0x97
  | .tya => 0x98
  | .staAbsY _ => 0x99
  | .txs => 0x9A
  | .tas9B => 0x9B
  | .shy9C => 0x9C
  | .staAbsX _ => 0x9D
  | .shx9E => 0x9E
  | .sha9F => 0x9F
  | .ldyImm _ => 0xA0
  | .ldaIndX _ => 0xA1
  | .ldxImm _ => 0xA2
  | .laxIndX _ => 0xA3
  | .ldyZp _ => 0xA4
  | .ldaZp _ => 0xA5
  | .ldxZp _ => 0xA6
  | .laxZp _ => 0xA7
  | .tay => 0xA8
  | .ldaImm _ => 0xA9
  | .tax => 0xAA
  | .lxaAB => 0xAB
  | .ldyAbs _ => 0xAC
  | .ldaAbs _ => 0xAD
  | .ldxAbs _ => 0xAE
  | .laxAbs _ => 0xAF
  | .bcs _ => 0xB0
  | .ldaIndY _ => 0xB1
  | .jamB2 => 0xB2
  | .laxIndY _ => 0xB3
  | .ldyZpX _ => 0xB4
  | .ldaZpX _ => 0xB5
  | .ldxZpY _ => 0xB6
  | .laxZpY _ => 0xB7
  | .clv => 0xB8
  | .ldaAbsY _ => 0xB9
  | .tsx => 0xBA
  | .lasBB => 0xBB
  | .ldyAbsX _ => 0xBC
  | .ldaAbsX _ => 0xBD
  | .ldxAbsY _ => 0xBE
  | .laxAbsY _ => 0xBF
  | .cpyImm _ => 0xC0
  | .cmpIndX _ => 0xC1
  | .nopImmC2 _ => 0xC2
  | .dcpIndX _ => 0xC3
  | .cpyZp _ => 0xC4
  | .cmpZp _ => 0xC5
  | .decZp _ => 0xC6
  | .dcpZp _ => 0xC7
  | .iny => 0xC8
  | .cmpImm _ => 0xC9
  | .dex => 0xCA
  | .sbxCB => 0xCB
  | .cpyAbs _ => 0xCC
  | .cmpAbs _ => 0xCD
  | .decAbs _ => 0xCE
  | .dcpAbs _ => 0xCF
  | .bne _ => 0xD0
  | .cmpIndY _ => 0xD1
  | .jamD2 => 0xD2
  | .dcpIndY _ => 0xD3
  | .nopZpXD4 _ => 0xD4
  | .cmpZpX _ => 0xD5
  | .decZpX _ => 0xD6
  | .dcpZpX _ => 0xD7
  | .cld => 0xD8
  | .cmpAbsY _ => 0xD9
  | .nopDA => 0xDA
  | .dcpAbsY _ => 0xDB
  | .nopAbsXDC _ => 0xDC
  | .cmpAbsX _ => 0xDD
  | .decAbsX _ => 0xDE
  | .dcpAbsX _ => 0xDF
  | .cpxImm _ => 0xE0
  | .sbcIndX _ => 0xE1
  | .nopImmE2 _ => 0xE2
  | .isbIndX _ => 0xE3
  | .cpxZp _ => 0xE4
  | .sbcZp _ => 0xE5
  | .incZp _ => 0xE6
  | .isbZp _ => 0xE7
  | .inx => 0xE8
  | .sbcImm _ => 0xE9
  | .nop => 0xEA
  | .sbcImmEB _ => 0xEB
  | .cpxAbs _ => 0xEC
  | .sbcAbs _ => 0xED
  | .incAbs _ => 0xEE
  | .isbAbs _ => 0xEF
  | .beq _ => 0xF0
  | .sbcIndY _ => 0xF1
  | .jamF2 => 0xF2
  | .isbIndY _ => 0xF3
  | .nopZpXF4 _ => 0xF4
  | .sbcZpX _ => 0xF5
  | .incZpX _ => 0xF6
  | .isbZpX _ => 0xF7
  | .sed => 0xF8
  | .sbcAbsY _ => 0xF9
  | .nopFA => 0xFA
  | .isbAbsY _ => 0xFB
  | .nopAbsXFC _ => 0xFC
  | .sbcAbsX _ => 0xFD
  | .incAbsX _ => 0xFE
  | .isbAbsX _ => 0xFF

/-- The addressing mode of each instruction with its operand (the table's "format"). An Unsupported entry has no
mode and fetches nothing (R120, R127). -/
def Instr.operand : Instr → Operand
  | .brk => .implied
  | .oraIndX zp => .indexedIndirectX zp
  | .jam02 => .implied
  | .sloIndX zp => .indexedIndirectX zp
  | .nopZp04 zp => .zeroPage zp
  | .oraZp zp => .zeroPage zp
  | .aslZp zp => .zeroPage zp
  | .sloZp zp => .zeroPage zp
  | .php => .implied
  | .oraImm v => .immediate v
  | .aslAcc => .accumulator
  | .anc0B => .implied
  | .nopAbs0C addr => .absolute addr
  | .oraAbs addr => .absolute addr
  | .aslAbs addr => .absolute addr
  | .sloAbs addr => .absolute addr
  | .bpl off => .relative off
  | .oraIndY zp => .indirectIndexedY zp
  | .jam12 => .implied
  | .sloIndY zp => .indirectIndexedY zp
  | .nopZpX14 zp => .zeroPageX zp
  | .oraZpX zp => .zeroPageX zp
  | .aslZpX zp => .zeroPageX zp
  | .sloZpX zp => .zeroPageX zp
  | .clc => .implied
  | .oraAbsY addr => .absoluteY addr
  | .nop1A => .implied
  | .sloAbsY addr => .absoluteY addr
  | .nopAbsX1C addr => .absoluteX addr
  | .oraAbsX addr => .absoluteX addr
  | .aslAbsX addr => .absoluteX addr
  | .sloAbsX addr => .absoluteX addr
  | .jsr addr => .absolute addr
  | .andIndX zp => .indexedIndirectX zp
  | .jam22 => .implied
  | .rlaIndX zp => .indexedIndirectX zp
  | .bitZp zp => .zeroPage zp
  | .andZp zp => .zeroPage zp
  | .rolZp zp => .zeroPage zp
  | .rlaZp zp => .zeroPage zp
  | .plp => .implied
  | .andImm v => .immediate v
  | .rolAcc => .accumulator
  | .anc2B => .implied
  | .bitAbs addr => .absolute addr
  | .andAbs addr => .absolute addr
  | .rolAbs addr => .absolute addr
  | .rlaAbs addr => .absolute addr
  | .bmi off => .relative off
  | .andIndY zp => .indirectIndexedY zp
  | .jam32 => .implied
  | .rlaIndY zp => .indirectIndexedY zp
  | .nopZpX34 zp => .zeroPageX zp
  | .andZpX zp => .zeroPageX zp
  | .rolZpX zp => .zeroPageX zp
  | .rlaZpX zp => .zeroPageX zp
  | .sec => .implied
  | .andAbsY addr => .absoluteY addr
  | .nop3A => .implied
  | .rlaAbsY addr => .absoluteY addr
  | .nopAbsX3C addr => .absoluteX addr
  | .andAbsX addr => .absoluteX addr
  | .rolAbsX addr => .absoluteX addr
  | .rlaAbsX addr => .absoluteX addr
  | .rti => .implied
  | .eorIndX zp => .indexedIndirectX zp
  | .jam42 => .implied
  | .sreIndX zp => .indexedIndirectX zp
  | .nopZp44 zp => .zeroPage zp
  | .eorZp zp => .zeroPage zp
  | .lsrZp zp => .zeroPage zp
  | .sreZp zp => .zeroPage zp
  | .pha => .implied
  | .eorImm v => .immediate v
  | .lsrAcc => .accumulator
  | .alr4B => .implied
  | .jmpAbs addr => .absolute addr
  | .eorAbs addr => .absolute addr
  | .lsrAbs addr => .absolute addr
  | .sreAbs addr => .absolute addr
  | .bvc off => .relative off
  | .eorIndY zp => .indirectIndexedY zp
  | .jam52 => .implied
  | .sreIndY zp => .indirectIndexedY zp
  | .nopZpX54 zp => .zeroPageX zp
  | .eorZpX zp => .zeroPageX zp
  | .lsrZpX zp => .zeroPageX zp
  | .sreZpX zp => .zeroPageX zp
  | .cli => .implied
  | .eorAbsY addr => .absoluteY addr
  | .nop5A => .implied
  | .sreAbsY addr => .absoluteY addr
  | .nopAbsX5C addr => .absoluteX addr
  | .eorAbsX addr => .absoluteX addr
  | .lsrAbsX addr => .absoluteX addr
  | .sreAbsX addr => .absoluteX addr
  | .rts => .implied
  | .adcIndX zp => .indexedIndirectX zp
  | .jam62 => .implied
  | .rraIndX zp => .indexedIndirectX zp
  | .nopZp64 zp => .zeroPage zp
  | .adcZp zp => .zeroPage zp
  | .rorZp zp => .zeroPage zp
  | .rraZp zp => .zeroPage zp
  | .pla => .implied
  | .adcImm v => .immediate v
  | .rorAcc => .accumulator
  | .arr6B => .implied
  | .jmpInd ptr => .indirect ptr
  | .adcAbs addr => .absolute addr
  | .rorAbs addr => .absolute addr
  | .rraAbs addr => .absolute addr
  | .bvs off => .relative off
  | .adcIndY zp => .indirectIndexedY zp
  | .jam72 => .implied
  | .rraIndY zp => .indirectIndexedY zp
  | .nopZpX74 zp => .zeroPageX zp
  | .adcZpX zp => .zeroPageX zp
  | .rorZpX zp => .zeroPageX zp
  | .rraZpX zp => .zeroPageX zp
  | .sei => .implied
  | .adcAbsY addr => .absoluteY addr
  | .nop7A => .implied
  | .rraAbsY addr => .absoluteY addr
  | .nopAbsX7C addr => .absoluteX addr
  | .adcAbsX addr => .absoluteX addr
  | .rorAbsX addr => .absoluteX addr
  | .rraAbsX addr => .absoluteX addr
  | .nopImm80 v => .immediate v
  | .staIndX zp => .indexedIndirectX zp
  | .nopImm82 v => .immediate v
  | .saxIndX zp => .indexedIndirectX zp
  | .styZp zp => .zeroPage zp
  | .staZp zp => .zeroPage zp
  | .stxZp zp => .zeroPage zp
  | .saxZp zp => .zeroPage zp
  | .dey => .implied
  | .nopImm89 v => .immediate v
  | .txa => .implied
  | .ane8B => .implied
  | .styAbs addr => .absolute addr
  | .staAbs addr => .absolute addr
  | .stxAbs addr => .absolute addr
  | .saxAbs addr => .absolute addr
  | .bcc off => .relative off
  | .staIndY zp => .indirectIndexedY zp
  | .jam92 => .implied
  | .sha93 => .implied
  | .styZpX zp => .zeroPageX zp
  | .staZpX zp => .zeroPageX zp
  | .stxZpY zp => .zeroPageY zp
  | .saxZpY zp => .zeroPageY zp
  | .tya => .implied
  | .staAbsY addr => .absoluteY addr
  | .txs => .implied
  | .tas9B => .implied
  | .shy9C => .implied
  | .staAbsX addr => .absoluteX addr
  | .shx9E => .implied
  | .sha9F => .implied
  | .ldyImm v => .immediate v
  | .ldaIndX zp => .indexedIndirectX zp
  | .ldxImm v => .immediate v
  | .laxIndX zp => .indexedIndirectX zp
  | .ldyZp zp => .zeroPage zp
  | .ldaZp zp => .zeroPage zp
  | .ldxZp zp => .zeroPage zp
  | .laxZp zp => .zeroPage zp
  | .tay => .implied
  | .ldaImm v => .immediate v
  | .tax => .implied
  | .lxaAB => .implied
  | .ldyAbs addr => .absolute addr
  | .ldaAbs addr => .absolute addr
  | .ldxAbs addr => .absolute addr
  | .laxAbs addr => .absolute addr
  | .bcs off => .relative off
  | .ldaIndY zp => .indirectIndexedY zp
  | .jamB2 => .implied
  | .laxIndY zp => .indirectIndexedY zp
  | .ldyZpX zp => .zeroPageX zp
  | .ldaZpX zp => .zeroPageX zp
  | .ldxZpY zp => .zeroPageY zp
  | .laxZpY zp => .zeroPageY zp
  | .clv => .implied
  | .ldaAbsY addr => .absoluteY addr
  | .tsx => .implied
  | .lasBB => .implied
  | .ldyAbsX addr => .absoluteX addr
  | .ldaAbsX addr => .absoluteX addr
  | .ldxAbsY addr => .absoluteY addr
  | .laxAbsY addr => .absoluteY addr
  | .cpyImm v => .immediate v
  | .cmpIndX zp => .indexedIndirectX zp
  | .nopImmC2 v => .immediate v
  | .dcpIndX zp => .indexedIndirectX zp
  | .cpyZp zp => .zeroPage zp
  | .cmpZp zp => .zeroPage zp
  | .decZp zp => .zeroPage zp
  | .dcpZp zp => .zeroPage zp
  | .iny => .implied
  | .cmpImm v => .immediate v
  | .dex => .implied
  | .sbxCB => .implied
  | .cpyAbs addr => .absolute addr
  | .cmpAbs addr => .absolute addr
  | .decAbs addr => .absolute addr
  | .dcpAbs addr => .absolute addr
  | .bne off => .relative off
  | .cmpIndY zp => .indirectIndexedY zp
  | .jamD2 => .implied
  | .dcpIndY zp => .indirectIndexedY zp
  | .nopZpXD4 zp => .zeroPageX zp
  | .cmpZpX zp => .zeroPageX zp
  | .decZpX zp => .zeroPageX zp
  | .dcpZpX zp => .zeroPageX zp
  | .cld => .implied
  | .cmpAbsY addr => .absoluteY addr
  | .nopDA => .implied
  | .dcpAbsY addr => .absoluteY addr
  | .nopAbsXDC addr => .absoluteX addr
  | .cmpAbsX addr => .absoluteX addr
  | .decAbsX addr => .absoluteX addr
  | .dcpAbsX addr => .absoluteX addr
  | .cpxImm v => .immediate v
  | .sbcIndX zp => .indexedIndirectX zp
  | .nopImmE2 v => .immediate v
  | .isbIndX zp => .indexedIndirectX zp
  | .cpxZp zp => .zeroPage zp
  | .sbcZp zp => .zeroPage zp
  | .incZp zp => .zeroPage zp
  | .isbZp zp => .zeroPage zp
  | .inx => .implied
  | .sbcImm v => .immediate v
  | .nop => .implied
  | .sbcImmEB v => .immediate v
  | .cpxAbs addr => .absolute addr
  | .sbcAbs addr => .absolute addr
  | .incAbs addr => .absolute addr
  | .isbAbs addr => .absolute addr
  | .beq off => .relative off
  | .sbcIndY zp => .indirectIndexedY zp
  | .jamF2 => .implied
  | .isbIndY zp => .indirectIndexedY zp
  | .nopZpXF4 zp => .zeroPageX zp
  | .sbcZpX zp => .zeroPageX zp
  | .incZpX zp => .zeroPageX zp
  | .isbZpX zp => .zeroPageX zp
  | .sed => .implied
  | .sbcAbsY addr => .absoluteY addr
  | .nopFA => .implied
  | .isbAbsY addr => .absoluteY addr
  | .nopAbsXFC addr => .absoluteX addr
  | .sbcAbsX addr => .absoluteX addr
  | .incAbsX addr => .absoluteX addr
  | .isbAbsX addr => .absoluteX addr

/-- The operation of each instruction (the table's "mnemonic"). -/
def Instr.operation : Instr → Operation
  | .brk => .brk
  | .oraIndX _ => .ora
  | .jam02 => .unsupported
  | .sloIndX _ => .slo
  | .nopZp04 _ => .nop
  | .oraZp _ => .ora
  | .aslZp _ => .asl
  | .sloZp _ => .slo
  | .php => .php
  | .oraImm _ => .ora
  | .aslAcc => .asl
  | .anc0B => .unsupported
  | .nopAbs0C _ => .nop
  | .oraAbs _ => .ora
  | .aslAbs _ => .asl
  | .sloAbs _ => .slo
  | .bpl _ => .bpl
  | .oraIndY _ => .ora
  | .jam12 => .unsupported
  | .sloIndY _ => .slo
  | .nopZpX14 _ => .nop
  | .oraZpX _ => .ora
  | .aslZpX _ => .asl
  | .sloZpX _ => .slo
  | .clc => .clc
  | .oraAbsY _ => .ora
  | .nop1A => .nop
  | .sloAbsY _ => .slo
  | .nopAbsX1C _ => .nop
  | .oraAbsX _ => .ora
  | .aslAbsX _ => .asl
  | .sloAbsX _ => .slo
  | .jsr _ => .jsr
  | .andIndX _ => .and
  | .jam22 => .unsupported
  | .rlaIndX _ => .rla
  | .bitZp _ => .bit
  | .andZp _ => .and
  | .rolZp _ => .rol
  | .rlaZp _ => .rla
  | .plp => .plp
  | .andImm _ => .and
  | .rolAcc => .rol
  | .anc2B => .unsupported
  | .bitAbs _ => .bit
  | .andAbs _ => .and
  | .rolAbs _ => .rol
  | .rlaAbs _ => .rla
  | .bmi _ => .bmi
  | .andIndY _ => .and
  | .jam32 => .unsupported
  | .rlaIndY _ => .rla
  | .nopZpX34 _ => .nop
  | .andZpX _ => .and
  | .rolZpX _ => .rol
  | .rlaZpX _ => .rla
  | .sec => .sec
  | .andAbsY _ => .and
  | .nop3A => .nop
  | .rlaAbsY _ => .rla
  | .nopAbsX3C _ => .nop
  | .andAbsX _ => .and
  | .rolAbsX _ => .rol
  | .rlaAbsX _ => .rla
  | .rti => .rti
  | .eorIndX _ => .eor
  | .jam42 => .unsupported
  | .sreIndX _ => .sre
  | .nopZp44 _ => .nop
  | .eorZp _ => .eor
  | .lsrZp _ => .lsr
  | .sreZp _ => .sre
  | .pha => .pha
  | .eorImm _ => .eor
  | .lsrAcc => .lsr
  | .alr4B => .unsupported
  | .jmpAbs _ => .jmp
  | .eorAbs _ => .eor
  | .lsrAbs _ => .lsr
  | .sreAbs _ => .sre
  | .bvc _ => .bvc
  | .eorIndY _ => .eor
  | .jam52 => .unsupported
  | .sreIndY _ => .sre
  | .nopZpX54 _ => .nop
  | .eorZpX _ => .eor
  | .lsrZpX _ => .lsr
  | .sreZpX _ => .sre
  | .cli => .cli
  | .eorAbsY _ => .eor
  | .nop5A => .nop
  | .sreAbsY _ => .sre
  | .nopAbsX5C _ => .nop
  | .eorAbsX _ => .eor
  | .lsrAbsX _ => .lsr
  | .sreAbsX _ => .sre
  | .rts => .rts
  | .adcIndX _ => .adc
  | .jam62 => .unsupported
  | .rraIndX _ => .rra
  | .nopZp64 _ => .nop
  | .adcZp _ => .adc
  | .rorZp _ => .ror
  | .rraZp _ => .rra
  | .pla => .pla
  | .adcImm _ => .adc
  | .rorAcc => .ror
  | .arr6B => .unsupported
  | .jmpInd _ => .jmp
  | .adcAbs _ => .adc
  | .rorAbs _ => .ror
  | .rraAbs _ => .rra
  | .bvs _ => .bvs
  | .adcIndY _ => .adc
  | .jam72 => .unsupported
  | .rraIndY _ => .rra
  | .nopZpX74 _ => .nop
  | .adcZpX _ => .adc
  | .rorZpX _ => .ror
  | .rraZpX _ => .rra
  | .sei => .sei
  | .adcAbsY _ => .adc
  | .nop7A => .nop
  | .rraAbsY _ => .rra
  | .nopAbsX7C _ => .nop
  | .adcAbsX _ => .adc
  | .rorAbsX _ => .ror
  | .rraAbsX _ => .rra
  | .nopImm80 _ => .nop
  | .staIndX _ => .sta
  | .nopImm82 _ => .nop
  | .saxIndX _ => .sax
  | .styZp _ => .sty
  | .staZp _ => .sta
  | .stxZp _ => .stx
  | .saxZp _ => .sax
  | .dey => .dey
  | .nopImm89 _ => .nop
  | .txa => .txa
  | .ane8B => .unsupported
  | .styAbs _ => .sty
  | .staAbs _ => .sta
  | .stxAbs _ => .stx
  | .saxAbs _ => .sax
  | .bcc _ => .bcc
  | .staIndY _ => .sta
  | .jam92 => .unsupported
  | .sha93 => .unsupported
  | .styZpX _ => .sty
  | .staZpX _ => .sta
  | .stxZpY _ => .stx
  | .saxZpY _ => .sax
  | .tya => .tya
  | .staAbsY _ => .sta
  | .txs => .txs
  | .tas9B => .unsupported
  | .shy9C => .unsupported
  | .staAbsX _ => .sta
  | .shx9E => .unsupported
  | .sha9F => .unsupported
  | .ldyImm _ => .ldy
  | .ldaIndX _ => .lda
  | .ldxImm _ => .ldx
  | .laxIndX _ => .lax
  | .ldyZp _ => .ldy
  | .ldaZp _ => .lda
  | .ldxZp _ => .ldx
  | .laxZp _ => .lax
  | .tay => .tay
  | .ldaImm _ => .lda
  | .tax => .tax
  | .lxaAB => .unsupported
  | .ldyAbs _ => .ldy
  | .ldaAbs _ => .lda
  | .ldxAbs _ => .ldx
  | .laxAbs _ => .lax
  | .bcs _ => .bcs
  | .ldaIndY _ => .lda
  | .jamB2 => .unsupported
  | .laxIndY _ => .lax
  | .ldyZpX _ => .ldy
  | .ldaZpX _ => .lda
  | .ldxZpY _ => .ldx
  | .laxZpY _ => .lax
  | .clv => .clv
  | .ldaAbsY _ => .lda
  | .tsx => .tsx
  | .lasBB => .unsupported
  | .ldyAbsX _ => .ldy
  | .ldaAbsX _ => .lda
  | .ldxAbsY _ => .ldx
  | .laxAbsY _ => .lax
  | .cpyImm _ => .cpy
  | .cmpIndX _ => .cmp
  | .nopImmC2 _ => .nop
  | .dcpIndX _ => .dcp
  | .cpyZp _ => .cpy
  | .cmpZp _ => .cmp
  | .decZp _ => .dec
  | .dcpZp _ => .dcp
  | .iny => .iny
  | .cmpImm _ => .cmp
  | .dex => .dex
  | .sbxCB => .unsupported
  | .cpyAbs _ => .cpy
  | .cmpAbs _ => .cmp
  | .decAbs _ => .dec
  | .dcpAbs _ => .dcp
  | .bne _ => .bne
  | .cmpIndY _ => .cmp
  | .jamD2 => .unsupported
  | .dcpIndY _ => .dcp
  | .nopZpXD4 _ => .nop
  | .cmpZpX _ => .cmp
  | .decZpX _ => .dec
  | .dcpZpX _ => .dcp
  | .cld => .cld
  | .cmpAbsY _ => .cmp
  | .nopDA => .nop
  | .dcpAbsY _ => .dcp
  | .nopAbsXDC _ => .nop
  | .cmpAbsX _ => .cmp
  | .decAbsX _ => .dec
  | .dcpAbsX _ => .dcp
  | .cpxImm _ => .cpx
  | .sbcIndX _ => .sbc
  | .nopImmE2 _ => .nop
  | .isbIndX _ => .isb
  | .cpxZp _ => .cpx
  | .sbcZp _ => .sbc
  | .incZp _ => .inc
  | .isbZp _ => .isb
  | .inx => .inx
  | .sbcImm _ => .sbc
  | .nop => .nop
  | .sbcImmEB _ => .sbc
  | .cpxAbs _ => .cpx
  | .sbcAbs _ => .sbc
  | .incAbs _ => .inc
  | .isbAbs _ => .isb
  | .beq _ => .beq
  | .sbcIndY _ => .sbc
  | .jamF2 => .unsupported
  | .isbIndY _ => .isb
  | .nopZpXF4 _ => .nop
  | .sbcZpX _ => .sbc
  | .incZpX _ => .inc
  | .isbZpX _ => .isb
  | .sed => .sed
  | .sbcAbsY _ => .sbc
  | .nopFA => .nop
  | .isbAbsY _ => .isb
  | .nopAbsXFC _ => .nop
  | .sbcAbsX _ => .sbc
  | .incAbsX _ => .inc
  | .isbAbsX _ => .isb

/-- The mode without its operand. -/
def Operand.mode : Operand → Mode
  | .implied => .implied
  | .accumulator => .accumulator
  | .immediate _ => .immediate
  | .zeroPage _ => .zeroPage
  | .zeroPageX _ => .zeroPageX
  | .zeroPageY _ => .zeroPageY
  | .absolute _ => .absolute
  | .absoluteX _ => .absoluteX
  | .absoluteY _ => .absoluteY
  | .indirect _ => .indirect
  | .indexedIndirectX _ => .indexedIndirectX
  | .indirectIndexedY _ => .indirectIndexedY
  | .relative _ => .relative

/-- The mode of an instruction. -/
def Instr.mode (i : Instr) : Mode := i.operand.mode

/-! ## Lengths and encoding -/

/-- The operand bytes, in increasing address order: a 16-bit operand's low byte first (R120, R122). -/
def Operand.bytes : Operand → List Byte
  | .implied => []
  | .accumulator => []
  | .immediate v => [v]
  | .zeroPage zp => [zp]
  | .zeroPageX zp => [zp]
  | .zeroPageY zp => [zp]
  | .absolute addr => [loByte addr, hiByte addr]
  | .absoluteX base => [loByte base, hiByte base]
  | .absoluteY base => [loByte base, hiByte base]
  | .indirect ptr => [loByte ptr, hiByte ptr]
  | .indexedIndirectX zp => [zp]
  | .indirectIndexedY zp => [zp]
  | .relative off => [offsetByte off]

/-- The bytes of an instruction (R120). -/
def encode (i : Instr) : List Byte := i.opcode :: i.operand.bytes

/-- How many operand bytes a mode has (R120, the mode-to-length table). -/
def Mode.operandBytes : Mode → Nat
  | .implied => 0
  | .accumulator => 0
  | .immediate => 1
  | .zeroPage => 1
  | .zeroPageX => 1
  | .zeroPageY => 1
  | .absolute => 2
  | .absoluteX => 2
  | .absoluteY => 2
  | .indirect => 2
  | .indexedIndirectX => 1
  | .indirectIndexedY => 1
  | .relative => 1

/-- The length of the instruction an opcode byte begins: the byte alone fixes it (R120). -/
def instrLength (op : Byte) : Nat := 1 + (decodeOp op 0 0).mode.operandBytes

/-! ## Decoding a byte list -/

/-- Why a byte list is not the beginning of an instruction. -/
inductive DecodeError where
  /-- There is no opcode byte. -/
  | empty
  /-- The list ends before the operand bytes of this opcode do. -/
  | truncated (op : Byte)
  deriving DecidableEq, Repr

/-- The instruction a byte list begins with, and the rest of the list. -/
def decode : List Byte → Except DecodeError (Instr × List Byte)
  | [] => .error .empty
  | op :: rest =>
    match instrLength op, rest with
    | 1, rest => .ok (decodeOp op 0 0, rest)
    | 2, lo :: rest => .ok (decodeOp op lo 0, rest)
    | 3, lo :: hi :: rest => .ok (decodeOp op lo hi, rest)
    | _, _ => .error (.truncated op)

/-- The three bytes of an opcode-table word: bit 0 of the word is bit 0 of the first byte, and the bits at and above
`nbits` are 0. -/
def tableBytes (nbits w : Nat) : List Byte :=
  let v := w % 2 ^ nbits
  [BitVec.ofNat 8 v, BitVec.ofNat 8 (v / 0x100), BitVec.ofNat 8 (v / 0x10000)]

/-- What the decoder reads from an opcode-table word. -/
def decodeTableWord (nbits w : Nat) : Option Instr :=
  match decode (tableBytes nbits w) with
  | .ok (i, _) => some i
  | .error _ => none

end Sys2Proof
end

