-- ==== Sys2Proof/Config.lean ====
section
/-!
DEFINITION. What one machine fixes for a whole session: the two Boolean parameters of spec/00_scope.md R7
(spec/10_state.md R49) and the sizes of the physical memories (R7). The timing literals and the byte an unwritten
location reads as stand with the operations that use them, under Machine/.
-/

namespace Sys2Proof.Config

/-- The parameters of R7 that a model takes as arguments. They are part of the state as constants of the session
(R49 "the same throughout a session"); no step writes them. -/
structure Params where
  /-- `PRG_RAM_PRESENT` (R69, decision D23). -/
  prgRamPresent : Bool
  /-- `NOP_READS_OPERAND` (R280, decision D4). -/
  nopReadsOperand : Bool
  deriving DecidableEq, Repr

/-- The defaults R7 states: both false. -/
def Params.default : Params := { prgRamPresent := false, nopReadsOperand := false }

/-- Internal RAM, R30. -/
abbrev ramSize : Nat := 2048
/-- Nametable VRAM, R43. -/
abbrev vramSize : Nat := 2048
/-- Palette RAM, R44. -/
abbrev paletteSize : Nat := 32
/-- Object attribute memory, R45. -/
abbrev oamSize : Nat := 256
/-- One PRG bank, R48. -/
abbrev prgBankSize : Nat := 16384
/-- One CHR bank, and CHR RAM, R48. -/
abbrev chrBankSize : Nat := 8192
/-- PRG RAM when present, R48. -/
abbrev prgRamSize : Nat := 8192

end Sys2Proof.Config
end

