-- ==== Sys2Proof/Machine/State.lean ====
section
/-!
DEFINITION. The whole state of the block, spec/10_state.md R20 to R50, as plain data; the reasons a step may stop;
the state right after reset (spec/70_reset_and_hazards.md R370 to R373). The field names are the spec's.
-/

namespace Sys2Proof.Machine

/-- One physical memory: (index, byte) pairs in one canonical form (`Memory.wf`, Machine/Ops.lean): indices strictly
rising and no entry equal to what an unlisted index reads as. -/
abbrev Memory := List Host.Cell

/-- A step never stops with a fault: "No instruction traps, and no instruction is retried" (R303). The type has no
constructor. The spec's IllegalWrite "fault" is a sticky record that execution does not stop on (R72, D30), and its
LoadError ends the construction of a cartridge, not a step (R101). Safe: nothing is claimed of a fault. -/
inductive Fault where
  deriving DecidableEq, Repr

/-- The refusals of R302, and the one the dispatch uses for an arm without a meaning. -/
inductive Refusal where
  /-- Raised by `exec` for an instruction that has no meaning in this model yet (no arm does so). Safe: the step has
  no next state. -/
  | notModelled (mnemonic : String)
  /-- `Refuse(UnsupportedOpcode(op))`: raised by the meanings of the 25 unsupported bytes (R125, R285, D2). Safe: the
  step has no next state. -/
  | unsupportedOpcode (op : Byte)
  /-- `Refuse(FourScreenUnsupported)`: raised by a nametable access under FourScreen mirroring (R88, D21). Safe: the
  step has no next state. -/
  | fourScreenUnsupported
  deriving DecidableEq, Repr

/-- The nametable mirroring mode of the cartridge header (R47). -/
inductive Mirroring where
  | horizontal
  | vertical
  | fourScreen
  deriving DecidableEq, Repr

/-- The cartridge header, immutable after construction (R47). -/
structure Header where
  prgBanks : Nat
  chrBanks : Nat
  mapperId : Byte
  mirroring : Mirroring
  trainer : Bool
  battery : Bool
  deriving DecidableEq, Repr

/-- The cartridge and its memories (R47, R48). `chr` is CHR ROM when `chrBanks > 0` and CHR RAM when it is 0. -/
structure Cartridge where
  header : Header
  prg : Memory
  chr : Memory
  prgRam : Memory
  deriving DecidableEq, Repr

/-- The PPU's registers, latches, raster counters and memories (R33 to R45). -/
structure Ppu where
  ctrl : Byte
  mask : Byte
  status : Byte
  oamAddr : Byte
  scrollX : Byte
  scrollY : Byte
  scrollW : Bool
  vramAddr : VAddr
  addrW : Bool
  readBuf : Byte
  nmiPending : Bool
  dot : Nat
  scanline : Int
  vram : Memory
  palette : Memory
  oam : Memory
  deriving DecidableEq, Repr

/-- The controller at its port (R46). -/
structure Controller where
  buttons : Byte
  strobe : Bool
  index : Nat
  deriving DecidableEq, Repr

/-- One draw of the rendering oracle that is not (false, false): what it answers at one raster position (R343). -/
structure RenderDraw where
  scanline : Int
  dot : Nat
  hit : Bool
  overflow : Bool
  deriving DecidableEq, Repr

/-- What the host supplies for one Clock step (R49): the IRQ line's level, the rendering oracle's draws, and a
`SetButtonState` made before the step (R362), if any. -/
structure HostInput where
  irqLine : Bool
  draws : List RenderDraw
  buttons : Option Byte
  deriving DecidableEq, Repr

/-- The defaults of R7: `irq_line` false, an oracle that sets nothing, no change of the buttons. -/
def HostInput.default : HostInput := { irqLine := false, draws := [], buttons := none }

/-- The whole state (R50). Every field is the spec's, but `params`, which R49 calls a parameter of the step relation
(no step writes it), and `inputs`, the model's own queue of what the host will supply, one entry a Clock step
(assumption 4). -/
structure State where
  a : Byte
  x : Byte
  y : Byte
  sp : Byte
  p : Byte
  pc : Addr
  cyc : Nat
  ram : Memory
  ppu : Ppu
  pad : Controller
  cart : Cartridge
  illegalWrite : Bool
  illegalWrites : List Addr
  refused : Option Refusal
  dmaThisStep : Bool
  params : Config.Params
  inputs : List HostInput
  deriving DecidableEq, Repr

/-- The PPU's registers and counters after Reset (R372, D11) over given memories. -/
def Ppu.afterReset (vram palette oam : Memory) : Ppu :=
  { ctrl := 0, mask := 0, status := 0, oamAddr := 0, scrollX := 0, scrollY := 0, scrollW := false,
    vramAddr := 0, addrW := false, readBuf := 0, nmiPending := false, dot := 0, scanline := -1,
    vram := vram, palette := palette, oam := oam }

/-- The cartridge `State.reset` holds: the header of the base state of spec/95_test_vectors.md, and no byte listed.
DESIGN CHOICE, assumption 2: the cartridge is the host's to supply (R100), and the spec fixes no contents. -/
def Cartridge.blank : Cartridge :=
  { header := { prgBanks := 1, chrBanks := 0, mapperId := 0, mirroring := .vertical, trainer := false,
                battery := false },
    prg := [], chr := [], prgRam := [] }

/-- The machine right after power-on and Reset (R370 to R373) with the blank cartridge, the default parameters and
no memory byte listed. PC is the little-endian word at 0xFFFC, which the blank PRG reads as 0x0000
(`reset_pc_is_vector`, Laws/Host.lean). -/
def State.reset : State :=
  { a := 0x00, x := 0x00, y := 0x00, sp := 0xFD, p := 0x20, pc := 0x0000, cyc := 7,
    ram := [], ppu := Ppu.afterReset [] [] [],
    pad := { buttons := 0x00, strobe := false, index := 0 },
    cart := Cartridge.blank, illegalWrite := false, illegalWrites := [], refused := none,
    dmaThisStep := false, params := Config.Params.default, inputs := [] }

/-- The outcome of an instruction, a Clock step or a `step`. -/
abbrev Result := Host.Outcome State Fault Refusal

end Sys2Proof.Machine
end

