-- ==== Sys2Proof/Machine/Flags.lean ====
section
/-!
DEFINITION. The status register P (spec/10_state.md R24) and every flag computation of the spec: setNZ
(spec/00_scope.md R9), AddCore (spec/44_arithmetic_logic.md R200), Compare (spec/46_flags_compare.md R232), BIT
(spec/48_bit_nop.md R260) and the shifts' results (spec/45_shift_rotate.md R215 to R218).
-/

namespace Sys2Proof.Machine

/-- `w` with bit `i` set to `b`. -/
def setBit (w : Byte) (i : Nat) (b : Bool) : Byte :=
  if b then w ||| (1#8 <<< i) else w &&& ~~~(1#8 <<< i)

/-! ## The bit positions of R24 -/

abbrev bitC : Nat := 0
abbrev bitZ : Nat := 1
abbrev bitI : Nat := 2
abbrev bitD : Nat := 3
abbrev bitB : Nat := 4
abbrev bitU : Nat := 5
abbrev bitV : Nat := 6
abbrev bitN : Nat := 7

/-- One flag of P. -/
def State.flag (s : State) (i : Nat) : Bool := s.p.getLsbD i

/-- P with one flag written; every other bit of P stays. -/
def State.setFlag (s : State) (i : Nat) (b : Bool) : State := { s with p := setBit s.p i b }

/-- The P that `setNZ(v)` leaves (R9): Z tells v = 0, N is bit 7 of v. -/
def nzBits (p v : Byte) : Byte := setBit (setBit p bitZ (v == 0)) bitN (v.getLsbD 7)

/-- `setNZ(v)` of R9. -/
def State.setNZ (s : State) (v : Byte) : State := { s with p := nzBits s.p v }

/-! ## The shared adder, R200 -/

/-- `nat(A) + nat(m) + nat(P.C)`, 0 .. 511. -/
def addSum (a m : Byte) (c : Bool) : Nat := a.toNat + m.toNat + c.toNat

/-- `sum & 0xFF`. -/
def addResult (a m : Byte) (c : Bool) : Byte := BitVec.ofNat 8 (addSum a m c)

/-- The carry out: `sum > 0xFF`. -/
def addCarry (a m : Byte) (c : Bool) : Bool := decide (addSum a m c > 0xFF)

/-- The source's formula `(~(A ^ m) & (A ^ r) & 0x80) != 0`. -/
def addOverflow (a m r : Byte) : Bool := (~~~(a ^^^ m) &&& (a ^^^ r) &&& 0x80#8) != 0#8

/-- `AddCore(m)`: binary whatever P.D holds (R200). -/
def State.addCore (s : State) (m : Byte) : State :=
  let r := addResult s.a m (s.flag bitC)
  let s1 := s.setFlag bitC (addCarry s.a m (s.flag bitC))
  let s2 := s1.setFlag bitV (addOverflow s.a m r)
  { s2 with a := r }.setNZ r

/-- `AddCore(~m)`, the subtraction of R201. -/
def State.subCore (s : State) (m : Byte) : State := s.addCore (~~~m)

/-! ## Compare and BIT -/

/-- `Compare(reg, m)` of R232: C, Z and N of the unsigned subtraction; V is not written. -/
def State.compare (s : State) (reg m : Byte) : State :=
  let t := reg - m
  let s1 := s.setFlag bitC (decide (m.toNat ≤ reg.toNat))
  let s2 := s1.setFlag bitZ (reg == m)
  s2.setFlag bitN (t.getLsbD 7)

/-- BIT of R260: Z from A & m, V and N from bits 6 and 7 of m. -/
def State.bitTest (s : State) (m : Byte) : State :=
  let s1 := s.setFlag bitZ (s.a &&& m == 0)
  let s2 := s1.setFlag bitV (m.getLsbD 6)
  s2.setFlag bitN (m.getLsbD 7)

/-! ## Shift and rotate results, one bit each -/

/-- R215 `(v << 1) & 0xFF`. -/
def aslResult (v : Byte) : Byte := v <<< 1
/-- R216 `v >> 1`. -/
def lsrResult (v : Byte) : Byte := v >>> 1
/-- R217 `((v << 1) | c) & 0xFF`. -/
def rolResult (v : Byte) (c : Bool) : Byte := (v <<< 1) ||| (if c then 0x01#8 else 0x00#8)
/-- R218 `(v >> 1) | (c << 7)`. -/
def rorResult (v : Byte) (c : Bool) : Byte := (v >>> 1) ||| (if c then 0x80#8 else 0x00#8)

/-- What PLP and RTI make of the pulled byte (R183, R253): B is 0 and U is 1. -/
def pulledStatus (v : Byte) : Byte := (v &&& 0xCF#8) ||| 0x20#8
/-- What PHP and BRK push (R181, R252): B and U set. -/
def pushedByInstr (p : Byte) : Byte := p ||| 0x30#8
/-- What NMI and IRQ entry push (R310, R311): B clear, U set. -/
def pushedByInterrupt (p : Byte) : Byte := (p &&& ~~~0x10#8) ||| 0x20#8

end Sys2Proof.Machine
end

