-- ==== Sys2Proof/Machine/Ops.lean ====
section
/-!
DEFINITION. The named operations over memory and registers: the sparse memories, the PPU address space and register
contract (spec/20_memory.md R85 to R89, spec/60_exceptions.md R350 to R358), the controller (R360, R361), the Bus
decoder with its reads, writes and OAM DMA (R60 to R81), the stack (R154), taking an interrupt and returning from one
(R310 to R312, R253), and the end of an instruction.

A bus read has a value and a side effect. They are two functions, `cpuRead` and `afterRead`, so that the value of a
read is an expression and its effect a state.
-/

namespace Sys2Proof.Machine

/-! ## Sparse memories -/

/-- What an index that no write has listed reads as. DESIGN CHOICE, assumption 1: the spec leaves the power-on contents
to the parameter MEM_INIT (R373, D31). -/
def unwritten : Byte := 0x00

/-- The byte at an index. -/
def Memory.read : Memory → Nat → Byte
  | [], _ => unwritten
  | (k, v) :: rest, i => if k = i then v else Memory.read rest i

/-- The memory with no entry for `i`. -/
def Memory.without : Memory → Nat → Memory
  | [], _ => []
  | (k, v) :: rest, i => if k = i then Memory.without rest i else (k, v) :: Memory.without rest i

/-- Insert an entry before the first larger index. -/
def Memory.place : Memory → Nat → Byte → Memory
  | [], i, v => [(i, v)]
  | (k, w) :: rest, i, v =>
    if i < k then (i, v) :: (k, w) :: rest else (k, w) :: Memory.place rest i v

/-- The memory after writing `v` at `i`: a byte equal to `unwritten` is not listed. -/
def Memory.write (m : Memory) (i : Nat) (v : Byte) : Memory :=
  if v = unwritten then m.without i else (m.without i).place i v

/-- Indices strictly rising from `lo` and no entry equal to `unwritten`. -/
def Memory.wfFrom : Nat → Memory → Bool
  | _, [] => true
  | lo, (k, v) :: rest => decide (lo ≤ k) && v != unwritten && Memory.wfFrom (k + 1) rest

/-- The canonical form. -/
def Memory.wf (m : Memory) : Bool := Memory.wfFrom 0 m

/-- Every listed index is below `size`. -/
def Memory.within (m : Memory) (size : Nat) : Bool := m.all fun c => decide (c.1 < size)

/-- The canonical memory that holds a list of bytes from index `i` on. -/
def Memory.ofBytesFrom : Nat → List Byte → Memory
  | _, [] => []
  | i, v :: rest => if v = unwritten then Memory.ofBytesFrom (i + 1) rest
                    else (i, v) :: Memory.ofBytesFrom (i + 1) rest

/-- The canonical memory that holds a list of bytes from index 0 on. -/
def Memory.ofBytes (bytes : List Byte) : Memory := Memory.ofBytesFrom 0 bytes

/-! ## Register updates -/

def State.setA (s : State) (v : Byte) : State := { s with a := v }
def State.setX (s : State) (v : Byte) : State := { s with x := v }
def State.setY (s : State) (v : Byte) : State := { s with y := v }
def State.setSp (s : State) (v : Byte) : State := { s with sp := v }
def State.setP (s : State) (v : Byte) : State := { s with p := v }
def State.setPc (s : State) (v : Addr) : State := { s with pc := v }
def State.setPpu (s : State) (v : Ppu) : State := { s with ppu := v }
def State.setDmaThisStep (s : State) (b : Bool) : State := { s with dmaThisStep := b }
/-- `cycles += n` (R9): an instruction adds its cycles to `cyc` itself, and the Clock step reads them off as the
difference (Machine/Clock.lean). -/
def State.addCycles (s : State) (n : Nat) : State := { s with cyc := s.cyc + n }

/-- `signal IllegalWrite(addr)`: the sticky flag and the list of addresses (R31, R72); nothing else changes. -/
def State.signalIllegalWrite (s : State) (addr : Addr) : State :=
  { s with illegalWrite := true, illegalWrites := s.illegalWrites ++ [addr] }

/-- `raise Refuse(reason)`: the first reason is kept (R32). `finish` turns the mark into the step's outcome, so
nothing the meaning does after the raise is ever seen (R302 discards the whole step). -/
def State.raise (s : State) (r : Refusal) : State :=
  { s with refused := some (s.refused.getD r) }

/-- The end of an instruction: no next state when a refusal was raised (R302, R303). -/
def finish (s : State) : Result :=
  match s.refused with
  | none => .next s
  | some r => .refused r

/-! ## The PPU address space, R85 to R89 -/

/-- `NtIndex(a)` of R88 for a in 0x2000..0x3EFF; none is the FourScreen refusal. -/
def ntIndex (m : Mirroring) (a : VAddr) : Option Nat :=
  let r := (a.toNat - 0x2000) % 0x1000
  let table := r / 0x400
  let off := r % 0x400
  match m with
  | .vertical => some (table % 2 * 0x400 + off)
  | .horizontal => some (table / 2 * 0x400 + off)
  | .fourScreen => none

/-- `PalIndex(a)` of R89 for a in 0x3F00..0x3FFF. -/
def palIndex (a : VAddr) : Nat :=
  let i := a.toNat % 0x20
  if i = 0x10 ∨ i = 0x14 ∨ i = 0x18 ∨ i = 0x1C then i - 0x10 else i

/-- What a PPU address names (the table of R85). -/
inductive PpuTarget where
  | chr (i : Nat)
  | nametable (i : Nat)
  | palette (i : Nat)
  /-- A nametable address under FourScreen mirroring (R88). -/
  | noTable
  deriving DecidableEq, Repr

/-- The PPU-side decoder of R85. `MapChrAddress(a) = a` (R71). -/
def ppuTarget (m : Mirroring) (a : VAddr) : PpuTarget :=
  if a.toNat ≤ 0x1FFF then .chr a.toNat
  else if a.toNat ≤ 0x3EFF then
    match ntIndex m a with
    | some i => .nametable i
    | none => .noTable
  else .palette (palIndex a)

/-- The mirroring mode of the cartridge in the machine. -/
def State.mirroring (s : State) : Mirroring := s.cart.header.mirroring

/-- The value of `PpuRead(a)` (R86, R88, R89). Where R88 refuses, the step is discarded and this value with it. -/
def State.ppuRead (s : State) (a : VAddr) : Byte :=
  match ppuTarget s.mirroring a with
  | .chr i => s.cart.chr.read i
  | .nametable i => s.ppu.vram.read i
  | .palette i => s.ppu.palette.read i
  | .noTable => unwritten

/-- The effect of `PpuRead(a)`: only R88's refusal. -/
def State.afterPpuRead (s : State) (a : VAddr) : State :=
  match ppuTarget s.mirroring a with
  | .noTable => s.raise .fourScreenUnsupported
  | _ => s

/-- `PpuWrite(a, v)` (R87, R88, R89). A write to CHR ROM signals IllegalWrite with the PPU address. -/
def State.ppuWrite (s : State) (a : VAddr) (v : Byte) : State :=
  match ppuTarget s.mirroring a with
  | .chr i =>
    if s.cart.header.chrBanks = 0 then { s with cart := { s.cart with chr := s.cart.chr.write i v } }
    else s.signalIllegalWrite (a.setWidth 16)
  | .nametable i => s.setPpu { s.ppu with vram := s.ppu.vram.write i v }
  | .palette i => s.setPpu { s.ppu with palette := s.ppu.palette.write i v }
  | .noTable => s.raise .fourScreenUnsupported

/-! ## The PPU register contract, R350 to R358 -/

abbrev bitVBlank : Nat := 7
abbrev bitSpriteZeroHit : Nat := 6
abbrev bitSpriteOverflow : Nat := 5

/-- `ctrl.EnableNmi`, bit 7 (R33). -/
def Ppu.enableNmi (p : Ppu) : Bool := p.ctrl.getLsbD 7

/-- The 0x2007 increment: 32 when `ctrl.IncrementMode`, bit 2, is 1, else 1 (R33, R357). -/
def Ppu.increment (p : Ppu) : VAddr := if p.ctrl.getLsbD 2 then 32 else 1

/-- `status.VBlank`, bit 7 (R35). -/
def Ppu.vblank (p : Ppu) : Bool := p.status.getLsbD bitVBlank

/-- The value a read of PPU register `0x2000 + r` returns (the table of R350). -/
def State.ppuRegRead (s : State) (r : Nat) : Byte :=
  match r with
  | 2 => s.ppu.status &&& 0xE0#8
  | 4 => s.ppu.oam.read s.ppu.oamAddr.toNat
  | 7 => if s.ppu.vramAddr.toNat ≥ 0x3F00 then s.ppuRead s.ppu.vramAddr else s.ppu.readBuf
  | _ => 0x00

/-- The effect of a 0x2002 read (R352). -/
def Ppu.afterStatusRead (p : Ppu) : Ppu :=
  { p with status := setBit p.status bitVBlank false, scrollW := false, addrW := false }

/-- The effect of a 0x2007 read (R357): below 0x3F00 the buffer is refilled from the address read at; the address
then advances, modulo 0x4000 (D18). -/
def State.afterDataRead (s : State) : State :=
  let a := s.ppu.vramAddr
  let buf := if a.toNat ≥ 0x3F00 then s.ppu.readBuf else s.ppuRead a
  (s.afterPpuRead a).setPpu { s.ppu with readBuf := buf, vramAddr := a + s.ppu.increment }

/-- The effect of a read of PPU register `0x2000 + r`. -/
def State.afterPpuRegRead (s : State) (r : Nat) : State :=
  match r with
  | 2 => s.setPpu s.ppu.afterStatusRead
  | 7 => s.afterDataRead
  | _ => s

/-- R351: a 0 to 1 write of EnableNmi during VBlank raises the NMI edge. -/
def Ppu.writeCtrl (p : Ppu) (v : Byte) : Ppu :=
  { p with ctrl := v, nmiPending := p.nmiPending || (!p.enableNmi && v.getLsbD 7 && p.vblank) }

/-- R355, the write: store, then advance the OAM address modulo 256. -/
def Ppu.writeOamData (p : Ppu) (v : Byte) : Ppu :=
  { p with oam := p.oam.write p.oamAddr.toNat v, oamAddr := p.oamAddr + 1 }

/-- R358: the first write sets scroll_x, the second scroll_y. -/
def Ppu.writeScroll (p : Ppu) (v : Byte) : Ppu :=
  if p.scrollW then { p with scrollY := v, scrollW := false }
  else { p with scrollX := v, scrollW := true }

/-- R356: the first write replaces bits 13:8, the second bits 7:0. -/
def Ppu.writeAddr (p : Ppu) (v : Byte) : Ppu :=
  if p.addrW then
    { p with vramAddr := (p.vramAddr &&& 0x3F00#14) ||| v.setWidth 14, addrW := false }
  else
    { p with vramAddr := ((v.setWidth 14) <<< 8) ||| (p.vramAddr &&& 0x00FF#14), addrW := true }

/-- A write to PPU register `0x2000 + r` (the table of R350). -/
def State.ppuRegWrite (s : State) (r : Nat) (v : Byte) : State :=
  match r with
  | 0 => s.setPpu (s.ppu.writeCtrl v)
  | 1 => s.setPpu { s.ppu with mask := v }
  | 3 => s.setPpu { s.ppu with oamAddr := v }
  | 4 => s.setPpu (s.ppu.writeOamData v)
  | 5 => s.setPpu (s.ppu.writeScroll v)
  | 6 => s.setPpu (s.ppu.writeAddr v)
  | 7 =>
    let s1 := s.ppuWrite s.ppu.vramAddr v
    s1.setPpu { s1.ppu with vramAddr := s.ppu.vramAddr + s.ppu.increment }
  | _ => s

/-! ## The controller, R360 and R361 -/

/-- The value of `ControllerRead()`: bits 7:1 are 0 (D47). -/
def Controller.read (c : Controller) : Byte :=
  if c.strobe then (if c.buttons.getLsbD 0 then 0x01 else 0x00)
  else if c.index > 7 then 0x01
  else if c.buttons.getLsbD c.index then 0x01 else 0x00

/-- The effect of `ControllerRead()`. -/
def Controller.afterRead (c : Controller) : Controller :=
  if c.strobe then c else if c.index > 7 then c else { c with index := c.index + 1 }

/-- `ControllerWrite(v)`. -/
def Controller.write (c : Controller) (v : Byte) : Controller :=
  let strobe := v.getLsbD 0
  { c with strobe := strobe, index := if strobe then 0 else c.index }

/-! ## The Bus decoder, R60 to R74 -/

/-- What a CPU address names (the table of R60). -/
inductive BusTarget where
  | ram (i : Nat)
  | ppuReg (r : Nat)
  | oamDma
  | controller
  | prgRam (i : Nat)
  | prgRom (i : Nat)
  /-- Reads return 0 and writes have no effect (R63, R66, R67, R68, R69). -/
  | unmapped
  deriving DecidableEq, Repr

/-- `MapPrgAddress(addr)`, the NROM translation of R71: the mask 0x3FFF with one bank, else 0x7FFF. -/
def mapPrgAddress (h : Header) (addr : Addr) : Nat :=
  if h.prgBanks = 1 then (addr &&& 0x3FFF#16).toNat else (addr &&& 0x7FFF#16).toNat

/-- The decoder of R60. -/
def State.busTarget (s : State) (addr : Addr) : BusTarget :=
  if addr.toNat ≤ 0x1FFF then .ram (addr &&& 0x07FF#16).toNat
  else if addr.toNat ≤ 0x3FFF then .ppuReg (addr &&& 0x0007#16).toNat
  else if addr.toNat = 0x4014 then .oamDma
  else if addr.toNat = 0x4016 then .controller
  else if addr.toNat ≤ 0x5FFF then .unmapped
  else if addr.toNat ≤ 0x7FFF then
    (if s.params.prgRamPresent then .prgRam (addr.toNat - 0x6000) else .unmapped)
  else .prgRom (mapPrgAddress s.cart.header addr)

/-- The value of `CpuRead(addr)`, that is of `MemRead(addr, 1)`. -/
def State.cpuRead (s : State) (addr : Addr) : Byte :=
  match s.busTarget addr with
  | .ram i => s.ram.read i
  | .ppuReg r => s.ppuRegRead r
  | .controller => s.pad.read
  | .prgRam i => s.cart.prgRam.read i
  | .prgRom i => s.cart.prg.read i
  | .oamDma => 0x00
  | .unmapped => 0x00

/-- The effect of `CpuRead(addr)` (R78): only the PPU registers and the controller have one. -/
def State.afterRead (s : State) (addr : Addr) : State :=
  match s.busTarget addr with
  | .ppuReg r => s.afterPpuRegRead r
  | .controller => { s with pad := s.pad.afterRead }
  | _ => s

/-! ### OAM DMA, R80 -/

/-- Copy byte `i` of the page at `base` into OAM, through the full decoder with its side effects. -/
def State.dmaCopy (s : State) (base : Addr) (i : Nat) : State :=
  let addr := base + BitVec.ofNat 16 i
  let b := s.cpuRead addr
  let s1 := s.afterRead addr
  s1.setPpu { s1.ppu with oam := s1.ppu.oam.write (s1.ppu.oamAddr + BitVec.ofNat 8 i).toNat b }

/-- Copy bytes 0 .. n - 1, in that order. -/
def State.dmaCopies (s : State) (base : Addr) : Nat → State
  | 0 => s
  | n + 1 => (s.dmaCopies base n).dmaCopy base n

/-- `OamDma(page)`: 256 bytes, and the mark the Clock step reads (R81, R320). -/
def State.oamDma (s : State) (page : Byte) : State :=
  (s.dmaCopies (joinBytes page 0x00) 256).setDmaThisStep true

/-- `CpuWrite(addr, v)`, that is `MemWrite(addr, 1, v)` (R60). -/
def State.cpuWrite (s : State) (addr : Addr) (v : Byte) : State :=
  match s.busTarget addr with
  | .ram i => { s with ram := s.ram.write i v }
  | .ppuReg r => s.ppuRegWrite r v
  | .oamDma => s.oamDma v
  | .controller => { s with pad := s.pad.write v }
  | .prgRam i => { s with cart := { s.cart with prgRam := s.cart.prgRam.write i v } }
  | .prgRom _ => s.signalIllegalWrite addr
  | .unmapped => s

/-- The value of `read16(addr)` (R9): the low byte first, then the high byte at `addr + 1` modulo 2^16. -/
def State.read16 (s : State) (addr : Addr) : Addr :=
  joinBytes ((s.afterRead addr).cpuRead (addr + 1)) (s.cpuRead addr)

/-- The effect of `read16(addr)`. -/
def State.afterRead16 (s : State) (addr : Addr) : State := (s.afterRead addr).afterRead (addr + 1)

/-! ## The stack, R154 -/

/-- The stack byte SP addresses: `0x0100 | SP` (R23). -/
def stackAddr (sp : Byte) : Addr := joinBytes 0x01 sp

/-- `push(v)`: write, then decrement SP modulo 256. -/
def State.push (s : State) (v : Byte) : State :=
  let s1 := s.cpuWrite (stackAddr s.sp) v
  s1.setSp (s1.sp - 1)

/-- The value of `pull()`: SP is incremented first. -/
def State.pull (s : State) : Byte := (s.setSp (s.sp + 1)).cpuRead (stackAddr (s.sp + 1))

/-- The effect of `pull()`. -/
def State.afterPull (s : State) : State := (s.setSp (s.sp + 1)).afterRead (stackAddr (s.sp + 1))

/-- Push a 16-bit value, high byte first (R76). -/
def State.push16 (s : State) (v : Addr) : State := (s.push (hiByte v)).push (loByte v)

/-- The 16-bit value two pulls give, low byte first (R76). -/
def State.pull16 (s : State) : Addr := joinBytes s.afterPull.pull s.pull

/-- The effect of those two pulls. -/
def State.afterPull16 (s : State) : State := s.afterPull.afterPull

/-! ## Taking an interrupt and returning from one -/

/-- The sequence NMI, IRQ and BRK share (R312): push the return address, push a status byte, set I, load PC from the
vector. -/
def State.enterInterrupt (s : State) (ret : Addr) (status : Byte) (vector : Addr) : State :=
  let s1 := ((s.push16 ret).push status).setFlag bitI true
  (s1.afterRead16 vector).setPc (s1.read16 vector)

/-- `Nmi()` of R310, less its 8 cycles (Machine/Clock.lean adds them). -/
def State.nmi (s : State) : State := s.enterInterrupt s.pc (pushedByInterrupt s.p) 0xFFFA

/-- `Irq()` of R311, less its 8 cycles and its gate (Machine/Clock.lean has both). -/
def State.irq (s : State) : State := s.enterInterrupt s.pc (pushedByInterrupt s.p) 0xFFFE

/-- BRK's sequence (R252): the pushed address is one past the byte after the opcode, and the pushed B is 1. -/
def State.brk (s : State) : State := s.enterInterrupt (s.pc + 1) (pushedByInstr s.p) 0xFFFE

/-- RTI's sequence (R253): P, then PC, with no + 1. -/
def State.rti (s : State) : State :=
  let s1 := s.afterPull.setP (pulledStatus s.pull)
  s1.afterPull16.setPc s1.pull16

end Sys2Proof.Machine
end

