-- ==== Sys2Proof/Machine/Operands.lean ====
section
/-!
DEFINITION. The addressing modes (spec/40_addressing_modes.md R140 to R153), the operand access discipline (R156), the
page-cross penalty (R155), and the shared shapes of an instruction built on them. Every instruction's meaning under
Machine/ is one call of a shape of this file.

A meaning runs after the fetch (Machine/Clock.lean): PC is already past the operand bytes, as it is when a mode of
R140 has run.
-/

namespace Sys2Proof.Machine

/-- What a mode returns (R140), with the state after the bus reads the mode makes. -/
structure Resolved where
  ea : Option Addr
  crossed : Bool
  st : State

/-- The page-boundary signal: the high bytes differ. -/
def pageCrossed (base ea : Addr) : Bool := hiByte base != hiByte ea

/-- An index register or byte as a 16-bit number (`zext_16`). -/
def zext (b : Byte) : Addr := b.setWidth 16

/-- The two reads of a pointer whose bytes lie at `lo` and `hi`, low byte first. -/
def State.readPair (s : State) (lo hi : Addr) : Addr :=
  joinBytes ((s.afterRead lo).cpuRead hi) (s.cpuRead lo)

/-- The effect of those two reads. -/
def State.afterReadPair (s : State) (lo hi : Addr) : State := (s.afterRead lo).afterRead hi

/-- The address of an Indirect pointer's high byte: it stays in the pointer's page (R150). -/
def indirectHi (ptr : Addr) : Addr := joinBytes (hiByte ptr) (loByte ptr + 1)

/-- The target of a branch from the address of the next instruction (R153). -/
def branchTarget (pc : Addr) (off : Int) : Addr := pc + BitVec.ofInt 16 off

/-- The addressing modes, R141 to R153. PC is past the operand bytes, so Immediate's `ea`, the address of its operand
byte, is PC - 1, and Relative's base, the address of the next instruction, is PC. -/
def resolve (o : Operand) (s : State) : Resolved :=
  match o with
  | .implied => { ea := none, crossed := false, st := s }
  | .accumulator => { ea := none, crossed := false, st := s }
  | .immediate _ => { ea := some (s.pc - 1), crossed := false, st := s }
  | .zeroPage zp => { ea := some (zext zp), crossed := false, st := s }
  | .zeroPageX zp => { ea := some (zext (zp + s.x)), crossed := false, st := s }
  | .zeroPageY zp => { ea := some (zext (zp + s.y)), crossed := false, st := s }
  | .absolute addr => { ea := some addr, crossed := false, st := s }
  | .absoluteX base => { ea := some (base + zext s.x), crossed := pageCrossed base (base + zext s.x), st := s }
  | .absoluteY base => { ea := some (base + zext s.y), crossed := pageCrossed base (base + zext s.y), st := s }
  | .indirect ptr =>
    { ea := some (s.readPair ptr (indirectHi ptr)), crossed := false, st := s.afterReadPair ptr (indirectHi ptr) }
  | .indexedIndirectX zp =>
    let p := zp + s.x
    { ea := some (s.readPair (zext p) (zext (p + 1))), crossed := false,
      st := s.afterReadPair (zext p) (zext (p + 1)) }
  | .indirectIndexedY zp =>
    let base := s.readPair (zext zp) (zext (zp + 1))
    { ea := some (base + zext s.y), crossed := pageCrossed base (base + zext s.y),
      st := s.afterReadPair (zext zp) (zext (zp + 1)) }
  | .relative off =>
    { ea := some (branchTarget s.pc off), crossed := pageCrossed s.pc (branchTarget s.pc off), st := s }

/-- An operand that has been read: R10's `M`, where it came from, and the state after the mode's reads and its own. -/
structure Loaded where
  ea : Option Addr
  crossed : Bool
  value : Byte
  st : State

/-- Read the operand once (R156). Immediate's byte is the one the fetch read (R143); with no effective address M is A
(R10). -/
def loadOperand (o : Operand) (s : State) : Loaded :=
  let r := resolve o s
  match o with
  | .immediate v => { ea := r.ea, crossed := r.crossed, value := v, st := r.st }
  | _ =>
    match r.ea with
    | some ea => { ea := some ea, crossed := r.crossed, value := r.st.cpuRead ea, st := r.st.afterRead ea }
    | none => { ea := none, crossed := r.crossed, value := r.st.a, st := r.st }

/-- Write a result to the operand: one bus write at `ea`, or A in Accumulator mode (R142, R156). -/
def State.writeOperand (s : State) (ea : Option Addr) (v : Byte) : State :=
  match ea with
  | some addr => s.cpuWrite addr v
  | none => s.setA v

/-- The page-cross penalty (R155, R300): 1 when the mode crossed a page and the operation cares. -/
def penalty (cares crossed : Bool) : Nat := if cares && crossed then 1 else 0

/-! ## The shapes of an instruction -/

/-- An instruction with no operand. -/
def impliedInstr (base : Nat) (f : State → State) (s : State) : Result := finish ((f s).addCycles base)

/-- A read instruction: `f` is given M. -/
def readInstr (o : Operand) (base : Nat) (cares : Bool) (f : State → Byte → State) (s : State) : Result :=
  let m := loadOperand o s
  finish ((f m.st m.value).addCycles (base + penalty cares m.crossed))

/-- A write instruction: one bus write of `v`, and no read of `ea`. -/
def storeInstr (o : Operand) (base : Nat) (v : State → Byte) (s : State) : Result :=
  let r := resolve o s
  finish ((r.st.writeOperand r.ea (v r.st)).addCycles base)

/-- A read-modify-write instruction: read M, write `g` of it, then `f` is given M and the result. -/
def modifyInstr (o : Operand) (base : Nat) (g : State → Byte → Byte) (f : State → Byte → Byte → State)
    (s : State) : Result :=
  let m := loadOperand o s
  let r := g m.st m.value
  finish ((f (m.st.writeOperand m.ea r) m.value r).addCycles base)

/-- `PC <- ea`. -/
def State.jumpTo (s : State) (ea : Option Addr) : State :=
  match ea with
  | some addr => s.setPc addr
  | none => s

/-- The common branch rule, R240: 2 cycles, 1 more when taken, 1 more when the target is in another page. -/
def branchInstr (off : Int) (cond : State → Bool) (s : State) : Result :=
  let r := resolve (.relative off) s
  if cond s then finish ((r.st.jumpTo r.ea).addCycles (2 + (1 + if r.crossed then 1 else 0)))
  else finish (r.st.addCycles 2)

/-- A jump: `PC <- ea` (R249). -/
def jumpInstr (o : Operand) (base : Nat) (s : State) : Result :=
  let r := resolve o s
  finish ((r.st.jumpTo r.ea).addCycles base)

/-- JSR (R250): push PC - 1, the address of the instruction's last byte, then `PC <- ea`. -/
def callInstr (o : Operand) (base : Nat) (s : State) : Result :=
  let r := resolve o s
  finish (((r.st.push16 (r.st.pc - 1)).jumpTo r.ea).addCycles base)

/-- An unofficial NOP memory form (R280): the mode runs, and `ea` is read, for its side effects only, when
`NOP_READS_OPERAND` holds. -/
def State.afterNopRead (s : State) (ea : Option Addr) : State :=
  match ea with
  | some addr => if s.params.nopReadsOperand then s.afterRead addr else s
  | none => s

/-- The unofficial NOP forms with an operand (R279 with `reads` false, R280 with it true). -/
def nopInstr (o : Operand) (base : Nat) (cares reads : Bool) (s : State) : Result :=
  let r := resolve o s
  finish ((if reads then r.st.afterNopRead r.ea else r.st).addCycles (base + penalty cares r.crossed))

end Sys2Proof.Machine
end

