-- ==== Sys2Proof/Machine/Arith.lean ====
section
/-!
DEFINITION. The meanings of the arithmetic and logical instructions (spec/44_arithmetic_logic.md R200 to R204), with the SBC alias 0xEB
(spec/49_unofficial.md R281).
-/

namespace Sys2Proof.Machine

/-- R200 `AddCore(M)`. -/
def State.adc (s : State) (m : Byte) : State := s.addCore m
/-- R201 `AddCore(~M)`. -/
def State.sbc (s : State) (m : Byte) : State := s.subCore m
/-- R202 `A <- A & M; setNZ(A)`. -/
def State.and (s : State) (m : Byte) : State := (s.setA (s.a &&& m)).setNZ (s.a &&& m)
/-- R203 `A <- A ^ M; setNZ(A)`. -/
def State.eor (s : State) (m : Byte) : State := (s.setA (s.a ^^^ m)).setNZ (s.a ^^^ m)
/-- R204 `A <- A | M; setNZ(A)`. -/
def State.ora (s : State) (m : Byte) : State := (s.setA (s.a ||| m)).setNZ (s.a ||| m)

/-- R204, byte 0x01: ORA (zp,X). -/
def execOraIndX (zp : Byte) (s : State) : Result := readInstr (.indexedIndirectX zp) 6 false State.ora s
/-- R204, byte 0x05: ORA zp. -/
def execOraZp (zp : Byte) (s : State) : Result := readInstr (.zeroPage zp) 3 false State.ora s
/-- R204, byte 0x09: ORA #v. -/
def execOraImm (v : Byte) (s : State) : Result := readInstr (.immediate v) 2 false State.ora s
/-- R204, byte 0x0D: ORA addr. -/
def execOraAbs (addr : Addr) (s : State) : Result := readInstr (.absolute addr) 4 false State.ora s
/-- R204, byte 0x11: ORA (zp),Y. -/
def execOraIndY (zp : Byte) (s : State) : Result := readInstr (.indirectIndexedY zp) 5 true State.ora s
/-- R204, byte 0x15: ORA zp,X. -/
def execOraZpX (zp : Byte) (s : State) : Result := readInstr (.zeroPageX zp) 4 false State.ora s
/-- R204, byte 0x19: ORA addr,Y. -/
def execOraAbsY (addr : Addr) (s : State) : Result := readInstr (.absoluteY addr) 4 true State.ora s
/-- R204, byte 0x1D: ORA addr,X. -/
def execOraAbsX (addr : Addr) (s : State) : Result := readInstr (.absoluteX addr) 4 true State.ora s
/-- R202, byte 0x21: AND (zp,X). -/
def execAndIndX (zp : Byte) (s : State) : Result := readInstr (.indexedIndirectX zp) 6 false State.and s
/-- R202, byte 0x25: AND zp. -/
def execAndZp (zp : Byte) (s : State) : Result := readInstr (.zeroPage zp) 3 false State.and s
/-- R202, byte 0x29: AND #v. -/
def execAndImm (v : Byte) (s : State) : Result := readInstr (.immediate v) 2 false State.and s
/-- R202, byte 0x2D: AND addr. -/
def execAndAbs (addr : Addr) (s : State) : Result := readInstr (.absolute addr) 4 false State.and s
/-- R202, byte 0x31: AND (zp),Y. -/
def execAndIndY (zp : Byte) (s : State) : Result := readInstr (.indirectIndexedY zp) 5 true State.and s
/-- R202, byte 0x35: AND zp,X. -/
def execAndZpX (zp : Byte) (s : State) : Result := readInstr (.zeroPageX zp) 4 false State.and s
/-- R202, byte 0x39: AND addr,Y. -/
def execAndAbsY (addr : Addr) (s : State) : Result := readInstr (.absoluteY addr) 4 true State.and s
/-- R202, byte 0x3D: AND addr,X. -/
def execAndAbsX (addr : Addr) (s : State) : Result := readInstr (.absoluteX addr) 4 true State.and s
/-- R203, byte 0x41: EOR (zp,X). -/
def execEorIndX (zp : Byte) (s : State) : Result := readInstr (.indexedIndirectX zp) 6 false State.eor s
/-- R203, byte 0x45: EOR zp. -/
def execEorZp (zp : Byte) (s : State) : Result := readInstr (.zeroPage zp) 3 false State.eor s
/-- R203, byte 0x49: EOR #v. -/
def execEorImm (v : Byte) (s : State) : Result := readInstr (.immediate v) 2 false State.eor s
/-- R203, byte 0x4D: EOR addr. -/
def execEorAbs (addr : Addr) (s : State) : Result := readInstr (.absolute addr) 4 false State.eor s
/-- R203, byte 0x51: EOR (zp),Y. -/
def execEorIndY (zp : Byte) (s : State) : Result := readInstr (.indirectIndexedY zp) 5 true State.eor s
/-- R203, byte 0x55: EOR zp,X. -/
def execEorZpX (zp : Byte) (s : State) : Result := readInstr (.zeroPageX zp) 4 false State.eor s
/-- R203, byte 0x59: EOR addr,Y. -/
def execEorAbsY (addr : Addr) (s : State) : Result := readInstr (.absoluteY addr) 4 true State.eor s
/-- R203, byte 0x5D: EOR addr,X. -/
def execEorAbsX (addr : Addr) (s : State) : Result := readInstr (.absoluteX addr) 4 true State.eor s
/-- R200, byte 0x61: ADC (zp,X). -/
def execAdcIndX (zp : Byte) (s : State) : Result := readInstr (.indexedIndirectX zp) 6 false State.adc s
/-- R200, byte 0x65: ADC zp. -/
def execAdcZp (zp : Byte) (s : State) : Result := readInstr (.zeroPage zp) 3 false State.adc s
/-- R200, byte 0x69: ADC #v. -/
def execAdcImm (v : Byte) (s : State) : Result := readInstr (.immediate v) 2 false State.adc s
/-- R200, byte 0x6D: ADC addr. -/
def execAdcAbs (addr : Addr) (s : State) : Result := readInstr (.absolute addr) 4 false State.adc s
/-- R200, byte 0x71: ADC (zp),Y. -/
def execAdcIndY (zp : Byte) (s : State) : Result := readInstr (.indirectIndexedY zp) 5 true State.adc s
/-- R200, byte 0x75: ADC zp,X. -/
def execAdcZpX (zp : Byte) (s : State) : Result := readInstr (.zeroPageX zp) 4 false State.adc s
/-- R200, byte 0x79: ADC addr,Y. -/
def execAdcAbsY (addr : Addr) (s : State) : Result := readInstr (.absoluteY addr) 4 true State.adc s
/-- R200, byte 0x7D: ADC addr,X. -/
def execAdcAbsX (addr : Addr) (s : State) : Result := readInstr (.absoluteX addr) 4 true State.adc s
/-- R201, byte 0xE1: SBC (zp,X). -/
def execSbcIndX (zp : Byte) (s : State) : Result := readInstr (.indexedIndirectX zp) 6 false State.sbc s
/-- R201, byte 0xE5: SBC zp. -/
def execSbcZp (zp : Byte) (s : State) : Result := readInstr (.zeroPage zp) 3 false State.sbc s
/-- R201, byte 0xE9: SBC #v. -/
def execSbcImm (v : Byte) (s : State) : Result := readInstr (.immediate v) 2 false State.sbc s
/-- R281, byte 0xEB: SBC #v. -/
def execSbcImmEB (v : Byte) (s : State) : Result := readInstr (.immediate v) 2 false State.sbc s
/-- R201, byte 0xED: SBC addr. -/
def execSbcAbs (addr : Addr) (s : State) : Result := readInstr (.absolute addr) 4 false State.sbc s
/-- R201, byte 0xF1: SBC (zp),Y. -/
def execSbcIndY (zp : Byte) (s : State) : Result := readInstr (.indirectIndexedY zp) 5 true State.sbc s
/-- R201, byte 0xF5: SBC zp,X. -/
def execSbcZpX (zp : Byte) (s : State) : Result := readInstr (.zeroPageX zp) 4 false State.sbc s
/-- R201, byte 0xF9: SBC addr,Y. -/
def execSbcAbsY (addr : Addr) (s : State) : Result := readInstr (.absoluteY addr) 4 true State.sbc s
/-- R201, byte 0xFD: SBC addr,X. -/
def execSbcAbsX (addr : Addr) (s : State) : Result := readInstr (.absoluteX addr) 4 true State.sbc s

end Sys2Proof.Machine
end

