-- ==== Sys2Proof/Machine/BitNop.lean ====
section
/-!
DEFINITION. The meanings of BIT and the official NOP (spec/48_bit_nop.md R260, R261).
-/

namespace Sys2Proof.Machine

/-- R260. -/
def State.bit (s : State) (m : Byte) : State := s.bitTest m

/-- R260, byte 0x24: BIT zp. -/
def execBitZp (zp : Byte) (s : State) : Result := readInstr (.zeroPage zp) 3 false State.bit s
/-- R260, byte 0x2C: BIT addr. -/
def execBitAbs (addr : Addr) (s : State) : Result := readInstr (.absolute addr) 4 false State.bit s
/-- R261, byte 0xEA: NOP. -/
def execNop (s : State) : Result := impliedInstr 2 id s

end Sys2Proof.Machine
end

