-- ==== Sys2Proof/Machine/Control.lean ====
section
/-!
DEFINITION. The meanings of the branches, jumps, subroutines and software interrupts (spec/47_control_transfer.md R240 to R253).
BRK and RTI are one call of the shared operations of Machine/Ops.lean.
-/

namespace Sys2Proof.Machine

/-- R241 `P.C == 0`. -/
def State.bccTaken (s : State) : Bool := !s.flag bitC
/-- R242 `P.C == 1`. -/
def State.bcsTaken (s : State) : Bool := s.flag bitC
/-- R243 `P.Z == 1`. -/
def State.beqTaken (s : State) : Bool := s.flag bitZ
/-- R244 `P.N == 1`. -/
def State.bmiTaken (s : State) : Bool := s.flag bitN
/-- R245 `P.Z == 0`. -/
def State.bneTaken (s : State) : Bool := !s.flag bitZ
/-- R246 `P.N == 0`. -/
def State.bplTaken (s : State) : Bool := !s.flag bitN
/-- R247 `P.V == 0`. -/
def State.bvcTaken (s : State) : Bool := !s.flag bitV
/-- R248 `P.V == 1`. -/
def State.bvsTaken (s : State) : Bool := s.flag bitV
/-- R251: the pulled word + 1. -/
def State.rts (s : State) : State := s.afterPull16.setPc (s.pull16 + 1)

/-- R252, byte 0x00: BRK. -/
def execBrk (s : State) : Result := impliedInstr 7 State.brk s
/-- R246, byte 0x10: BPL off. -/
def execBpl (off : Int) (s : State) : Result := branchInstr off State.bplTaken s
/-- R250, byte 0x20: JSR addr. -/
def execJsr (addr : Addr) (s : State) : Result := callInstr (.absolute addr) 6 s
/-- R244, byte 0x30: BMI off. -/
def execBmi (off : Int) (s : State) : Result := branchInstr off State.bmiTaken s
/-- R253, byte 0x40: RTI. -/
def execRti (s : State) : Result := impliedInstr 6 State.rti s
/-- R249, byte 0x4C: JMP addr. -/
def execJmpAbs (addr : Addr) (s : State) : Result := jumpInstr (.absolute addr) 3 s
/-- R247, byte 0x50: BVC off. -/
def execBvc (off : Int) (s : State) : Result := branchInstr off State.bvcTaken s
/-- R251, byte 0x60: RTS. -/
def execRts (s : State) : Result := impliedInstr 6 State.rts s
/-- R249, byte 0x6C: JMP (ptr). -/
def execJmpInd (ptr : Addr) (s : State) : Result := jumpInstr (.indirect ptr) 5 s
/-- R248, byte 0x70: BVS off. -/
def execBvs (off : Int) (s : State) : Result := branchInstr off State.bvsTaken s
/-- R241, byte 0x90: BCC off. -/
def execBcc (off : Int) (s : State) : Result := branchInstr off State.bccTaken s
/-- R242, byte 0xB0: BCS off. -/
def execBcs (off : Int) (s : State) : Result := branchInstr off State.bcsTaken s
/-- R245, byte 0xD0: BNE off. -/
def execBne (off : Int) (s : State) : Result := branchInstr off State.bneTaken s
/-- R243, byte 0xF0: BEQ off. -/
def execBeq (off : Int) (s : State) : Result := branchInstr off State.beqTaken s

end Sys2Proof.Machine
end

