-- ==== Sys2Proof/Machine/FlagCompare.lean ====
section
/-!
DEFINITION. The meanings of the flag and compare instructions (spec/46_flags_compare.md R225 to R234).
-/

namespace Sys2Proof.Machine

/-- R232 `Compare(A, M)`. -/
def State.cmp (s : State) (m : Byte) : State := s.compare s.a m
/-- R233 `Compare(X, M)`. -/
def State.cpx (s : State) (m : Byte) : State := s.compare s.x m
/-- R234 `Compare(Y, M)`. -/
def State.cpy (s : State) (m : Byte) : State := s.compare s.y m

/-- R225, byte 0x18: CLC. -/
def execClc (s : State) : Result := impliedInstr 2 (fun s => s.setFlag bitC false) s
/-- R229, byte 0x38: SEC. -/
def execSec (s : State) : Result := impliedInstr 2 (fun s => s.setFlag bitC true) s
/-- R227, byte 0x58: CLI. -/
def execCli (s : State) : Result := impliedInstr 2 (fun s => s.setFlag bitI false) s
/-- R231, byte 0x78: SEI. -/
def execSei (s : State) : Result := impliedInstr 2 (fun s => s.setFlag bitI true) s
/-- R228, byte 0xB8: CLV. -/
def execClv (s : State) : Result := impliedInstr 2 (fun s => s.setFlag bitV false) s
/-- R234, byte 0xC0: CPY #v. -/
def execCpyImm (v : Byte) (s : State) : Result := readInstr (.immediate v) 2 false State.cpy s
/-- R232, byte 0xC1: CMP (zp,X). -/
def execCmpIndX (zp : Byte) (s : State) : Result := readInstr (.indexedIndirectX zp) 6 false State.cmp s
/-- R234, byte 0xC4: CPY zp. -/
def execCpyZp (zp : Byte) (s : State) : Result := readInstr (.zeroPage zp) 3 false State.cpy s
/-- R232, byte 0xC5: CMP zp. -/
def execCmpZp (zp : Byte) (s : State) : Result := readInstr (.zeroPage zp) 3 false State.cmp s
/-- R232, byte 0xC9: CMP #v. -/
def execCmpImm (v : Byte) (s : State) : Result := readInstr (.immediate v) 2 false State.cmp s
/-- R234, byte 0xCC: CPY addr. -/
def execCpyAbs (addr : Addr) (s : State) : Result := readInstr (.absolute addr) 4 false State.cpy s
/-- R232, byte 0xCD: CMP addr. -/
def execCmpAbs (addr : Addr) (s : State) : Result := readInstr (.absolute addr) 4 false State.cmp s
/-- R232, byte 0xD1: CMP (zp),Y. -/
def execCmpIndY (zp : Byte) (s : State) : Result := readInstr (.indirectIndexedY zp) 5 true State.cmp s
/-- R232, byte 0xD5: CMP zp,X. -/
def execCmpZpX (zp : Byte) (s : State) : Result := readInstr (.zeroPageX zp) 4 false State.cmp s
/-- R226, byte 0xD8: CLD. -/
def execCld (s : State) : Result := impliedInstr 2 (fun s => s.setFlag bitD false) s
/-- R232, byte 0xD9: CMP addr,Y. -/
def execCmpAbsY (addr : Addr) (s : State) : Result := readInstr (.absoluteY addr) 4 true State.cmp s
/-- R232, byte 0xDD: CMP addr,X. -/
def execCmpAbsX (addr : Addr) (s : State) : Result := readInstr (.absoluteX addr) 4 true State.cmp s
/-- R233, byte 0xE0: CPX #v. -/
def execCpxImm (v : Byte) (s : State) : Result := readInstr (.immediate v) 2 false State.cpx s
/-- R233, byte 0xE4: CPX zp. -/
def execCpxZp (zp : Byte) (s : State) : Result := readInstr (.zeroPage zp) 3 false State.cpx s
/-- R233, byte 0xEC: CPX addr. -/
def execCpxAbs (addr : Addr) (s : State) : Result := readInstr (.absolute addr) 4 false State.cpx s
/-- R230, byte 0xF8: SED. -/
def execSed (s : State) : Result := impliedInstr 2 (fun s => s.setFlag bitD true) s

end Sys2Proof.Machine
end

