-- ==== Sys2Proof/Machine/IncDec.lean ====
section
/-!
DEFINITION. The meanings of the increment and decrement instructions (spec/43_inc_dec.md R190 to R195).
-/

namespace Sys2Proof.Machine

/-- R190 `r <- (v + 1) & 0xFF`. -/
def State.incResult (_ : State) (v : Byte) : Byte := v + 1
/-- R190 `setNZ(r)`. -/
def State.incAfter (s : State) (_ r : Byte) : State := s.setNZ r
/-- R191 `r <- (v - 1) & 0xFF`. -/
def State.decResult (_ : State) (v : Byte) : Byte := v - 1
/-- R191 `setNZ(r)`. -/
def State.decAfter (s : State) (_ r : Byte) : State := s.setNZ r
/-- R192. -/
def State.inx (s : State) : State := (s.setX (s.x + 1)).setNZ (s.x + 1)
/-- R193. -/
def State.iny (s : State) : State := (s.setY (s.y + 1)).setNZ (s.y + 1)
/-- R194. -/
def State.dex (s : State) : State := (s.setX (s.x - 1)).setNZ (s.x - 1)
/-- R195. -/
def State.dey (s : State) : State := (s.setY (s.y - 1)).setNZ (s.y - 1)

/-- R195, byte 0x88: DEY. -/
def execDey (s : State) : Result := impliedInstr 2 State.dey s
/-- R191, byte 0xC6: DEC zp. -/
def execDecZp (zp : Byte) (s : State) : Result := modifyInstr (.zeroPage zp) 5 State.decResult State.decAfter s
/-- R193, byte 0xC8: INY. -/
def execIny (s : State) : Result := impliedInstr 2 State.iny s
/-- R194, byte 0xCA: DEX. -/
def execDex (s : State) : Result := impliedInstr 2 State.dex s
/-- R191, byte 0xCE: DEC addr. -/
def execDecAbs (addr : Addr) (s : State) : Result := modifyInstr (.absolute addr) 6 State.decResult State.decAfter s
/-- R191, byte 0xD6: DEC zp,X. -/
def execDecZpX (zp : Byte) (s : State) : Result := modifyInstr (.zeroPageX zp) 6 State.decResult State.decAfter s
/-- R191, byte 0xDE: DEC addr,X. -/
def execDecAbsX (addr : Addr) (s : State) : Result := modifyInstr (.absoluteX addr) 7 State.decResult State.decAfter s
/-- R190, byte 0xE6: INC zp. -/
def execIncZp (zp : Byte) (s : State) : Result := modifyInstr (.zeroPage zp) 5 State.incResult State.incAfter s
/-- R192, byte 0xE8: INX. -/
def execInx (s : State) : Result := impliedInstr 2 State.inx s
/-- R190, byte 0xEE: INC addr. -/
def execIncAbs (addr : Addr) (s : State) : Result := modifyInstr (.absolute addr) 6 State.incResult State.incAfter s
/-- R190, byte 0xF6: INC zp,X. -/
def execIncZpX (zp : Byte) (s : State) : Result := modifyInstr (.zeroPageX zp) 6 State.incResult State.incAfter s
/-- R190, byte 0xFE: INC addr,X. -/
def execIncAbsX (addr : Addr) (s : State) : Result := modifyInstr (.absoluteX addr) 7 State.incResult State.incAfter s

end Sys2Proof.Machine
end

