-- ==== Sys2Proof/Machine/Shift.lean ====
section
/-!
DEFINITION. The meanings of the shifts and rotates (spec/45_shift_rotate.md R215 to R218), on A and on memory.
-/

namespace Sys2Proof.Machine

/-- R215 `r <- (v << 1) & 0xFF`. -/
def State.aslResult (_ : State) (v : Byte) : Byte := Machine.aslResult v
/-- R215 `P.C <- v[7]; setNZ(r)`. -/
def State.aslAfter (s : State) (v r : Byte) : State := (s.setFlag bitC (v.getLsbD 7)).setNZ r
/-- R216 `r <- v >> 1`. -/
def State.lsrResult (_ : State) (v : Byte) : Byte := Machine.lsrResult v
/-- R216 `P.C <- v[0]; setNZ(r)`. -/
def State.lsrAfter (s : State) (v r : Byte) : State := (s.setFlag bitC (v.getLsbD 0)).setNZ r
/-- R217 `r <- ((v << 1) | c) & 0xFF` with the old C. -/
def State.rolResult (s : State) (v : Byte) : Byte := Machine.rolResult v (s.flag bitC)
/-- R217 `P.C <- v[7]; setNZ(r)`. -/
def State.rolAfter (s : State) (v r : Byte) : State := (s.setFlag bitC (v.getLsbD 7)).setNZ r
/-- R218 `r <- (v >> 1) | (c << 7)` with the old C. -/
def State.rorResult (s : State) (v : Byte) : Byte := Machine.rorResult v (s.flag bitC)
/-- R218 `P.C <- v[0]; setNZ(r)`. -/
def State.rorAfter (s : State) (v r : Byte) : State := (s.setFlag bitC (v.getLsbD 0)).setNZ r

/-- R215, byte 0x06: ASL zp. -/
def execAslZp (zp : Byte) (s : State) : Result := modifyInstr (.zeroPage zp) 5 State.aslResult State.aslAfter s
/-- R215, byte 0x0A: ASL A. -/
def execAslAcc (s : State) : Result := modifyInstr .accumulator 2 State.aslResult State.aslAfter s
/-- R215, byte 0x0E: ASL addr. -/
def execAslAbs (addr : Addr) (s : State) : Result := modifyInstr (.absolute addr) 6 State.aslResult State.aslAfter s
/-- R215, byte 0x16: ASL zp,X. -/
def execAslZpX (zp : Byte) (s : State) : Result := modifyInstr (.zeroPageX zp) 6 State.aslResult State.aslAfter s
/-- R215, byte 0x1E: ASL addr,X. -/
def execAslAbsX (addr : Addr) (s : State) : Result := modifyInstr (.absoluteX addr) 7 State.aslResult State.aslAfter s
/-- R217, byte 0x26: ROL zp. -/
def execRolZp (zp : Byte) (s : State) : Result := modifyInstr (.zeroPage zp) 5 State.rolResult State.rolAfter s
/-- R217, byte 0x2A: ROL A. -/
def execRolAcc (s : State) : Result := modifyInstr .accumulator 2 State.rolResult State.rolAfter s
/-- R217, byte 0x2E: ROL addr. -/
def execRolAbs (addr : Addr) (s : State) : Result := modifyInstr (.absolute addr) 6 State.rolResult State.rolAfter s
/-- R217, byte 0x36: ROL zp,X. -/
def execRolZpX (zp : Byte) (s : State) : Result := modifyInstr (.zeroPageX zp) 6 State.rolResult State.rolAfter s
/-- R217, byte 0x3E: ROL addr,X. -/
def execRolAbsX (addr : Addr) (s : State) : Result := modifyInstr (.absoluteX addr) 7 State.rolResult State.rolAfter s
/-- R216, byte 0x46: LSR zp. -/
def execLsrZp (zp : Byte) (s : State) : Result := modifyInstr (.zeroPage zp) 5 State.lsrResult State.lsrAfter s
/-- R216, byte 0x4A: LSR A. -/
def execLsrAcc (s : State) : Result := modifyInstr .accumulator 2 State.lsrResult State.lsrAfter s
/-- R216, byte 0x4E: LSR addr. -/
def execLsrAbs (addr : Addr) (s : State) : Result := modifyInstr (.absolute addr) 6 State.lsrResult State.lsrAfter s
/-- R216, byte 0x56: LSR zp,X. -/
def execLsrZpX (zp : Byte) (s : State) : Result := modifyInstr (.zeroPageX zp) 6 State.lsrResult State.lsrAfter s
/-- R216, byte 0x5E: LSR addr,X. -/
def execLsrAbsX (addr : Addr) (s : State) : Result := modifyInstr (.absoluteX addr) 7 State.lsrResult State.lsrAfter s
/-- R218, byte 0x66: ROR zp. -/
def execRorZp (zp : Byte) (s : State) : Result := modifyInstr (.zeroPage zp) 5 State.rorResult State.rorAfter s
/-- R218, byte 0x6A: ROR A. -/
def execRorAcc (s : State) : Result := modifyInstr .accumulator 2 State.rorResult State.rorAfter s
/-- R218, byte 0x6E: ROR addr. -/
def execRorAbs (addr : Addr) (s : State) : Result := modifyInstr (.absolute addr) 6 State.rorResult State.rorAfter s
/-- R218, byte 0x76: ROR zp,X. -/
def execRorZpX (zp : Byte) (s : State) : Result := modifyInstr (.zeroPageX zp) 6 State.rorResult State.rorAfter s
/-- R218, byte 0x7E: ROR addr,X. -/
def execRorAbsX (addr : Addr) (s : State) : Result := modifyInstr (.absoluteX addr) 7 State.rorResult State.rorAfter s

end Sys2Proof.Machine
end

