-- ==== Sys2Proof/Machine/Stack.lean ====
section
/-!
DEFINITION. The meanings of the stack instructions (spec/42_stack.md R180 to R183).
-/

namespace Sys2Proof.Machine

/-- R180 `push(A)`. -/
def State.pha (s : State) : State := s.push s.a
/-- R181 `push(P | 0x30)`. -/
def State.php (s : State) : State := s.push (pushedByInstr s.p)
/-- R182 `v <- pull(); A <- v; setNZ(v)`. -/
def State.pla (s : State) : State := (s.afterPull.setA s.pull).setNZ s.pull
/-- R183 `v <- pull(); P <- (v & 0xCF) | 0x20`. -/
def State.plp (s : State) : State := s.afterPull.setP (pulledStatus s.pull)

/-- R181, byte 0x08: PHP. -/
def execPhp (s : State) : Result := impliedInstr 3 State.php s
/-- R183, byte 0x28: PLP. -/
def execPlp (s : State) : Result := impliedInstr 4 State.plp s
/-- R180, byte 0x48: PHA. -/
def execPha (s : State) : Result := impliedInstr 3 State.pha s
/-- R182, byte 0x68: PLA. -/
def execPla (s : State) : Result := impliedInstr 4 State.pla s

end Sys2Proof.Machine
end

