-- ==== Sys2Proof/Machine/Transfer.lean ====
section
/-!
DEFINITION. The meanings of the transfer, load and store instructions (spec/41_transfer_load_store.md R160 to R171).
-/

namespace Sys2Proof.Machine

/-- R160 `A <- v; setNZ(v)`. -/
def State.lda (s : State) (v : Byte) : State := (s.setA v).setNZ v
/-- R161 `X <- v; setNZ(v)`. -/
def State.ldx (s : State) (v : Byte) : State := (s.setX v).setNZ v
/-- R162 `Y <- v; setNZ(v)`. -/
def State.ldy (s : State) (v : Byte) : State := (s.setY v).setNZ v
/-- What STA stores (R163). -/
def State.staValue (s : State) : Byte := s.a
/-- What STX stores (R164). -/
def State.stxValue (s : State) : Byte := s.x
/-- What STY stores (R165). -/
def State.styValue (s : State) : Byte := s.y
/-- R166 `X <- A; setNZ(X)`. -/
def State.tax (s : State) : State := (s.setX s.a).setNZ s.a
/-- R167 `Y <- A; setNZ(Y)`. -/
def State.tay (s : State) : State := (s.setY s.a).setNZ s.a
/-- R168 `X <- SP; setNZ(X)`. -/
def State.tsx (s : State) : State := (s.setX s.sp).setNZ s.sp
/-- R169 `A <- X; setNZ(A)`. -/
def State.txa (s : State) : State := (s.setA s.x).setNZ s.x
/-- R170 `SP <- X`: the only transfer that writes no flag. -/
def State.txs (s : State) : State := s.setSp s.x
/-- R171 `A <- Y; setNZ(A)`. -/
def State.tya (s : State) : State := (s.setA s.y).setNZ s.y

/-- R163, byte 0x81: STA (zp,X). -/
def execStaIndX (zp : Byte) (s : State) : Result := storeInstr (.indexedIndirectX zp) 6 State.staValue s
/-- R165, byte 0x84: STY zp. -/
def execStyZp (zp : Byte) (s : State) : Result := storeInstr (.zeroPage zp) 3 State.styValue s
/-- R163, byte 0x85: STA zp. -/
def execStaZp (zp : Byte) (s : State) : Result := storeInstr (.zeroPage zp) 3 State.staValue s
/-- R164, byte 0x86: STX zp. -/
def execStxZp (zp : Byte) (s : State) : Result := storeInstr (.zeroPage zp) 3 State.stxValue s
/-- R169, byte 0x8A: TXA. -/
def execTxa (s : State) : Result := impliedInstr 2 State.txa s
/-- R165, byte 0x8C: STY addr. -/
def execStyAbs (addr : Addr) (s : State) : Result := storeInstr (.absolute addr) 4 State.styValue s
/-- R163, byte 0x8D: STA addr. -/
def execStaAbs (addr : Addr) (s : State) : Result := storeInstr (.absolute addr) 4 State.staValue s
/-- R164, byte 0x8E: STX addr. -/
def execStxAbs (addr : Addr) (s : State) : Result := storeInstr (.absolute addr) 4 State.stxValue s
/-- R163, byte 0x91: STA (zp),Y. -/
def execStaIndY (zp : Byte) (s : State) : Result := storeInstr (.indirectIndexedY zp) 6 State.staValue s
/-- R165, byte 0x94: STY zp,X. -/
def execStyZpX (zp : Byte) (s : State) : Result := storeInstr (.zeroPageX zp) 4 State.styValue s
/-- R163, byte 0x95: STA zp,X. -/
def execStaZpX (zp : Byte) (s : State) : Result := storeInstr (.zeroPageX zp) 4 State.staValue s
/-- R164, byte 0x96: STX zp,Y. -/
def execStxZpY (zp : Byte) (s : State) : Result := storeInstr (.zeroPageY zp) 4 State.stxValue s
/-- R171, byte 0x98: TYA. -/
def execTya (s : State) : Result := impliedInstr 2 State.tya s
/-- R163, byte 0x99: STA addr,Y. -/
def execStaAbsY (addr : Addr) (s : State) : Result := storeInstr (.absoluteY addr) 5 State.staValue s
/-- R170, byte 0x9A: TXS. -/
def execTxs (s : State) : Result := impliedInstr 2 State.txs s
/-- R163, byte 0x9D: STA addr,X. -/
def execStaAbsX (addr : Addr) (s : State) : Result := storeInstr (.absoluteX addr) 5 State.staValue s
/-- R162, byte 0xA0: LDY #v. -/
def execLdyImm (v : Byte) (s : State) : Result := readInstr (.immediate v) 2 false State.ldy s
/-- R160, byte 0xA1: LDA (zp,X). -/
def execLdaIndX (zp : Byte) (s : State) : Result := readInstr (.indexedIndirectX zp) 6 false State.lda s
/-- R161, byte 0xA2: LDX #v. -/
def execLdxImm (v : Byte) (s : State) : Result := readInstr (.immediate v) 2 false State.ldx s
/-- R162, byte 0xA4: LDY zp. -/
def execLdyZp (zp : Byte) (s : State) : Result := readInstr (.zeroPage zp) 3 false State.ldy s
/-- R160, byte 0xA5: LDA zp. -/
def execLdaZp (zp : Byte) (s : State) : Result := readInstr (.zeroPage zp) 3 false State.lda s
/-- R161, byte 0xA6: LDX zp. -/
def execLdxZp (zp : Byte) (s : State) : Result := readInstr (.zeroPage zp) 3 false State.ldx s
/-- R167, byte 0xA8: TAY. -/
def execTay (s : State) : Result := impliedInstr 2 State.tay s
/-- R160, byte 0xA9: LDA #v. -/
def execLdaImm (v : Byte) (s : State) : Result := readInstr (.immediate v) 2 false State.lda s
/-- R166, byte 0xAA: TAX. -/
def execTax (s : State) : Result := impliedInstr 2 State.tax s
/-- R162, byte 0xAC: LDY addr. -/
def execLdyAbs (addr : Addr) (s : State) : Result := readInstr (.absolute addr) 4 false State.ldy s
/-- R160, byte 0xAD: LDA addr. -/
def execLdaAbs (addr : Addr) (s : State) : Result := readInstr (.absolute addr) 4 false State.lda s
/-- R161, byte 0xAE: LDX addr. -/
def execLdxAbs (addr : Addr) (s : State) : Result := readInstr (.absolute addr) 4 false State.ldx s
/-- R160, byte 0xB1: LDA (zp),Y. -/
def execLdaIndY (zp : Byte) (s : State) : Result := readInstr (.indirectIndexedY zp) 5 true State.lda s
/-- R162, byte 0xB4: LDY zp,X. -/
def execLdyZpX (zp : Byte) (s : State) : Result := readInstr (.zeroPageX zp) 4 false State.ldy s
/-- R160, byte 0xB5: LDA zp,X. -/
def execLdaZpX (zp : Byte) (s : State) : Result := readInstr (.zeroPageX zp) 4 false State.lda s
/-- R161, byte 0xB6: LDX zp,Y. -/
def execLdxZpY (zp : Byte) (s : State) : Result := readInstr (.zeroPageY zp) 4 false State.ldx s
/-- R160, byte 0xB9: LDA addr,Y. -/
def execLdaAbsY (addr : Addr) (s : State) : Result := readInstr (.absoluteY addr) 4 true State.lda s
/-- R168, byte 0xBA: TSX. -/
def execTsx (s : State) : Result := impliedInstr 2 State.tsx s
/-- R162, byte 0xBC: LDY addr,X. -/
def execLdyAbsX (addr : Addr) (s : State) : Result := readInstr (.absoluteX addr) 4 true State.ldy s
/-- R160, byte 0xBD: LDA addr,X. -/
def execLdaAbsX (addr : Addr) (s : State) : Result := readInstr (.absoluteX addr) 4 true State.lda s
/-- R161, byte 0xBE: LDX addr,Y. -/
def execLdxAbsY (addr : Addr) (s : State) : Result := readInstr (.absoluteY addr) 4 true State.ldx s

end Sys2Proof.Machine
end

