-- ==== Sys2Proof/Machine/Unofficial.lean ====
section
/-!
DEFINITION. The meanings of the unofficial instructions (spec/49_unofficial.md R270 to R280): the first operation computes and writes r, the
second uses r as its operand.
-/

namespace Sys2Proof.Machine

/-- R270 `A <- m; X <- m; setNZ(m)`. -/
def State.lax (s : State) (m : Byte) : State := ((s.setA m).setX m).setNZ m
/-- R271: what SAX stores. -/
def State.saxValue (s : State) : Byte := s.a &&& s.x
/-- R272 `r <- (v - 1) & 0xFF`. -/
def State.dcpResult (_ : State) (v : Byte) : Byte := v - 1
/-- R272 `Compare(A, r)`. -/
def State.dcpAfter (s : State) (_ r : Byte) : State := s.compare s.a r
/-- R273 `r <- (v + 1) & 0xFF`. -/
def State.isbResult (_ : State) (v : Byte) : Byte := v + 1
/-- R273 `AddCore(~r)`. -/
def State.isbAfter (s : State) (_ r : Byte) : State := s.subCore r
/-- R274 `r <- (v << 1) & 0xFF`. -/
def State.sloResult (_ : State) (v : Byte) : Byte := Machine.aslResult v
/-- R274 `P.C <- v[7]; A <- A | r; setNZ(A)`. -/
def State.sloAfter (s : State) (v r : Byte) : State :=
  ((s.setFlag bitC (v.getLsbD 7)).setA (s.a ||| r)).setNZ (s.a ||| r)
/-- R275 `r <- ((v << 1) | c) & 0xFF` with the old C. -/
def State.rlaResult (s : State) (v : Byte) : Byte := Machine.rolResult v (s.flag bitC)
/-- R275 `P.C <- v[7]; A <- A & r; setNZ(A)`. -/
def State.rlaAfter (s : State) (v r : Byte) : State :=
  ((s.setFlag bitC (v.getLsbD 7)).setA (s.a &&& r)).setNZ (s.a &&& r)
/-- R276 `r <- v >> 1`. -/
def State.sreResult (_ : State) (v : Byte) : Byte := Machine.lsrResult v
/-- R276 `P.C <- v[0]; A <- A ^ r; setNZ(A)`. -/
def State.sreAfter (s : State) (v r : Byte) : State :=
  ((s.setFlag bitC (v.getLsbD 0)).setA (s.a ^^^ r)).setNZ (s.a ^^^ r)
/-- R277 `r <- (v >> 1) | (c << 7)` with the old C. -/
def State.rraResult (s : State) (v : Byte) : Byte := Machine.rorResult v (s.flag bitC)
/-- R277: the carry into the add is the bit shifted out. -/
def State.rraAfter (s : State) (v r : Byte) : State := (s.setFlag bitC (v.getLsbD 0)).addCore r

/-- R274, byte 0x03: SLO (zp,X). -/
def execSloIndX (zp : Byte) (s : State) : Result :=
  modifyInstr (.indexedIndirectX zp) 8 State.sloResult State.sloAfter s
/-- R280, byte 0x04: NOP zp. -/
def execNopZp04 (zp : Byte) (s : State) : Result := nopInstr (.zeroPage zp) 3 false true s
/-- R274, byte 0x07: SLO zp. -/
def execSloZp (zp : Byte) (s : State) : Result := modifyInstr (.zeroPage zp) 5 State.sloResult State.sloAfter s
/-- R280, byte 0x0C: NOP addr. -/
def execNopAbs0C (addr : Addr) (s : State) : Result := nopInstr (.absolute addr) 4 false true s
/-- R274, byte 0x0F: SLO addr. -/
def execSloAbs (addr : Addr) (s : State) : Result := modifyInstr (.absolute addr) 6 State.sloResult State.sloAfter s
/-- R274, byte 0x13: SLO (zp),Y. -/
def execSloIndY (zp : Byte) (s : State) : Result :=
  modifyInstr (.indirectIndexedY zp) 8 State.sloResult State.sloAfter s
/-- R280, byte 0x14: NOP zp,X. -/
def execNopZpX14 (zp : Byte) (s : State) : Result := nopInstr (.zeroPageX zp) 4 false true s
/-- R274, byte 0x17: SLO zp,X. -/
def execSloZpX (zp : Byte) (s : State) : Result := modifyInstr (.zeroPageX zp) 6 State.sloResult State.sloAfter s
/-- R278, byte 0x1A: NOP. -/
def execNop1A (s : State) : Result := impliedInstr 2 id s
/-- R274, byte 0x1B: SLO addr,Y. -/
def execSloAbsY (addr : Addr) (s : State) : Result := modifyInstr (.absoluteY addr) 7 State.sloResult State.sloAfter s
/-- R280, byte 0x1C: NOP addr,X. -/
def execNopAbsX1C (addr : Addr) (s : State) : Result := nopInstr (.absoluteX addr) 4 true true s
/-- R274, byte 0x1F: SLO addr,X. -/
def execSloAbsX (addr : Addr) (s : State) : Result := modifyInstr (.absoluteX addr) 7 State.sloResult State.sloAfter s
/-- R275, byte 0x23: RLA (zp,X). -/
def execRlaIndX (zp : Byte) (s : State) : Result :=
  modifyInstr (.indexedIndirectX zp) 8 State.rlaResult State.rlaAfter s
/-- R275, byte 0x27: RLA zp. -/
def execRlaZp (zp : Byte) (s : State) : Result := modifyInstr (.zeroPage zp) 5 State.rlaResult State.rlaAfter s
/-- R275, byte 0x2F: RLA addr. -/
def execRlaAbs (addr : Addr) (s : State) : Result := modifyInstr (.absolute addr) 6 State.rlaResult State.rlaAfter s
/-- R275, byte 0x33: RLA (zp),Y. -/
def execRlaIndY (zp : Byte) (s : State) : Result :=
  modifyInstr (.indirectIndexedY zp) 8 State.rlaResult State.rlaAfter s
/-- R280, byte 0x34: NOP zp,X. -/
def execNopZpX34 (zp : Byte) (s : State) : Result := nopInstr (.zeroPageX zp) 4 false true s
/-- R275, byte 0x37: RLA zp,X. -/
def execRlaZpX (zp : Byte) (s : State) : Result := modifyInstr (.zeroPageX zp) 6 State.rlaResult State.rlaAfter s
/-- R278, byte 0x3A: NOP. -/
def execNop3A (s : State) : Result := impliedInstr 2 id s
/-- R275, byte 0x3B: RLA addr,Y. -/
def execRlaAbsY (addr : Addr) (s : State) : Result := modifyInstr (.absoluteY addr) 7 State.rlaResult State.rlaAfter s
/-- R280, byte 0x3C: NOP addr,X. -/
def execNopAbsX3C (addr : Addr) (s : State) : Result := nopInstr (.absoluteX addr) 4 true true s
/-- R275, byte 0x3F: RLA addr,X. -/
def execRlaAbsX (addr : Addr) (s : State) : Result := modifyInstr (.absoluteX addr) 7 State.rlaResult State.rlaAfter s
/-- R276, byte 0x43: SRE (zp,X). -/
def execSreIndX (zp : Byte) (s : State) : Result :=
  modifyInstr (.indexedIndirectX zp) 8 State.sreResult State.sreAfter s
/-- R280, byte 0x44: NOP zp. -/
def execNopZp44 (zp : Byte) (s : State) : Result := nopInstr (.zeroPage zp) 3 false true s
/-- R276, byte 0x47: SRE zp. -/
def execSreZp (zp : Byte) (s : State) : Result := modifyInstr (.zeroPage zp) 5 State.sreResult State.sreAfter s
/-- R276, byte 0x4F: SRE addr. -/
def execSreAbs (addr : Addr) (s : State) : Result := modifyInstr (.absolute addr) 6 State.sreResult State.sreAfter s
/-- R276, byte 0x53: SRE (zp),Y. -/
def execSreIndY (zp : Byte) (s : State) : Result :=
  modifyInstr (.indirectIndexedY zp) 8 State.sreResult State.sreAfter s
/-- R280, byte 0x54: NOP zp,X. -/
def execNopZpX54 (zp : Byte) (s : State) : Result := nopInstr (.zeroPageX zp) 4 false true s
/-- R276, byte 0x57: SRE zp,X. -/
def execSreZpX (zp : Byte) (s : State) : Result := modifyInstr (.zeroPageX zp) 6 State.sreResult State.sreAfter s
/-- R278, byte 0x5A: NOP. -/
def execNop5A (s : State) : Result := impliedInstr 2 id s
/-- R276, byte 0x5B: SRE addr,Y. -/
def execSreAbsY (addr : Addr) (s : State) : Result := modifyInstr (.absoluteY addr) 7 State.sreResult State.sreAfter s
/-- R280, byte 0x5C: NOP addr,X. -/
def execNopAbsX5C (addr : Addr) (s : State) : Result := nopInstr (.absoluteX addr) 4 true true s
/-- R276, byte 0x5F: SRE addr,X. -/
def execSreAbsX (addr : Addr) (s : State) : Result := modifyInstr (.absoluteX addr) 7 State.sreResult State.sreAfter s
/-- R277, byte 0x63: RRA (zp,X). -/
def execRraIndX (zp : Byte) (s : State) : Result :=
  modifyInstr (.indexedIndirectX zp) 8 State.rraResult State.rraAfter s
/-- R280, byte 0x64: NOP zp. -/
def execNopZp64 (zp : Byte) (s : State) : Result := nopInstr (.zeroPage zp) 3 false true s
/-- R277, byte 0x67: RRA zp. -/
def execRraZp (zp : Byte) (s : State) : Result := modifyInstr (.zeroPage zp) 5 State.rraResult State.rraAfter s
/-- R277, byte 0x6F: RRA addr. -/
def execRraAbs (addr : Addr) (s : State) : Result := modifyInstr (.absolute addr) 6 State.rraResult State.rraAfter s
/-- R277, byte 0x73: RRA (zp),Y. -/
def execRraIndY (zp : Byte) (s : State) : Result :=
  modifyInstr (.indirectIndexedY zp) 8 State.rraResult State.rraAfter s
/-- R280, byte 0x74: NOP zp,X. -/
def execNopZpX74 (zp : Byte) (s : State) : Result := nopInstr (.zeroPageX zp) 4 false true s
/-- R277, byte 0x77: RRA zp,X. -/
def execRraZpX (zp : Byte) (s : State) : Result := modifyInstr (.zeroPageX zp) 6 State.rraResult State.rraAfter s
/-- R278, byte 0x7A: NOP. -/
def execNop7A (s : State) : Result := impliedInstr 2 id s
/-- R277, byte 0x7B: RRA addr,Y. -/
def execRraAbsY (addr : Addr) (s : State) : Result := modifyInstr (.absoluteY addr) 7 State.rraResult State.rraAfter s
/-- R280, byte 0x7C: NOP addr,X. -/
def execNopAbsX7C (addr : Addr) (s : State) : Result := nopInstr (.absoluteX addr) 4 true true s
/-- R277, byte 0x7F: RRA addr,X. -/
def execRraAbsX (addr : Addr) (s : State) : Result := modifyInstr (.absoluteX addr) 7 State.rraResult State.rraAfter s
/-- R279, byte 0x80: NOP #v. -/
def execNopImm80 (v : Byte) (s : State) : Result := nopInstr (.immediate v) 2 false false s
/-- R279, byte 0x82: NOP #v. -/
def execNopImm82 (v : Byte) (s : State) : Result := nopInstr (.immediate v) 2 false false s
/-- R271, byte 0x83: SAX (zp,X). -/
def execSaxIndX (zp : Byte) (s : State) : Result := storeInstr (.indexedIndirectX zp) 6 State.saxValue s
/-- R271, byte 0x87: SAX zp. -/
def execSaxZp (zp : Byte) (s : State) : Result := storeInstr (.zeroPage zp) 3 State.saxValue s
/-- R279, byte 0x89: NOP #v. -/
def execNopImm89 (v : Byte) (s : State) : Result := nopInstr (.immediate v) 2 false false s
/-- R271, byte 0x8F: SAX addr. -/
def execSaxAbs (addr : Addr) (s : State) : Result := storeInstr (.absolute addr) 4 State.saxValue s
/-- R271, byte 0x97: SAX zp,Y. -/
def execSaxZpY (zp : Byte) (s : State) : Result := storeInstr (.zeroPageY zp) 4 State.saxValue s
/-- R270, byte 0xA3: LAX (zp,X). -/
def execLaxIndX (zp : Byte) (s : State) : Result := readInstr (.indexedIndirectX zp) 6 false State.lax s
/-- R270, byte 0xA7: LAX zp. -/
def execLaxZp (zp : Byte) (s : State) : Result := readInstr (.zeroPage zp) 3 false State.lax s
/-- R270, byte 0xAF: LAX addr. -/
def execLaxAbs (addr : Addr) (s : State) : Result := readInstr (.absolute addr) 4 false State.lax s
/-- R270, byte 0xB3: LAX (zp),Y. -/
def execLaxIndY (zp : Byte) (s : State) : Result := readInstr (.indirectIndexedY zp) 5 true State.lax s
/-- R270, byte 0xB7: LAX zp,Y. -/
def execLaxZpY (zp : Byte) (s : State) : Result := readInstr (.zeroPageY zp) 4 false State.lax s
/-- R270, byte 0xBF: LAX addr,Y. -/
def execLaxAbsY (addr : Addr) (s : State) : Result := readInstr (.absoluteY addr) 4 true State.lax s
/-- R279, byte 0xC2: NOP #v. -/
def execNopImmC2 (v : Byte) (s : State) : Result := nopInstr (.immediate v) 2 false false s
/-- R272, byte 0xC3: DCP (zp,X). -/
def execDcpIndX (zp : Byte) (s : State) : Result :=
  modifyInstr (.indexedIndirectX zp) 8 State.dcpResult State.dcpAfter s
/-- R272, byte 0xC7: DCP zp. -/
def execDcpZp (zp : Byte) (s : State) : Result := modifyInstr (.zeroPage zp) 5 State.dcpResult State.dcpAfter s
/-- R272, byte 0xCF: DCP addr. -/
def execDcpAbs (addr : Addr) (s : State) : Result := modifyInstr (.absolute addr) 6 State.dcpResult State.dcpAfter s
/-- R272, byte 0xD3: DCP (zp),Y. -/
def execDcpIndY (zp : Byte) (s : State) : Result :=
  modifyInstr (.indirectIndexedY zp) 8 State.dcpResult State.dcpAfter s
/-- R280, byte 0xD4: NOP zp,X. -/
def execNopZpXD4 (zp : Byte) (s : State) : Result := nopInstr (.zeroPageX zp) 4 false true s
/-- R272, byte 0xD7: DCP zp,X. -/
def execDcpZpX (zp : Byte) (s : State) : Result := modifyInstr (.zeroPageX zp) 6 State.dcpResult State.dcpAfter s
/-- R278, byte 0xDA: NOP. -/
def execNopDA (s : State) : Result := impliedInstr 2 id s
/-- R272, byte 0xDB: DCP addr,Y. -/
def execDcpAbsY (addr : Addr) (s : State) : Result := modifyInstr (.absoluteY addr) 7 State.dcpResult State.dcpAfter s
/-- R280, byte 0xDC: NOP addr,X. -/
def execNopAbsXDC (addr : Addr) (s : State) : Result := nopInstr (.absoluteX addr) 4 true true s
/-- R272, byte 0xDF: DCP addr,X. -/
def execDcpAbsX (addr : Addr) (s : State) : Result := modifyInstr (.absoluteX addr) 7 State.dcpResult State.dcpAfter s
/-- R279, byte 0xE2: NOP #v. -/
def execNopImmE2 (v : Byte) (s : State) : Result := nopInstr (.immediate v) 2 false false s
/-- R273, byte 0xE3: ISB (zp,X). -/
def execIsbIndX (zp : Byte) (s : State) : Result :=
  modifyInstr (.indexedIndirectX zp) 8 State.isbResult State.isbAfter s
/-- R273, byte 0xE7: ISB zp. -/
def execIsbZp (zp : Byte) (s : State) : Result := modifyInstr (.zeroPage zp) 5 State.isbResult State.isbAfter s
/-- R273, byte 0xEF: ISB addr. -/
def execIsbAbs (addr : Addr) (s : State) : Result := modifyInstr (.absolute addr) 6 State.isbResult State.isbAfter s
/-- R273, byte 0xF3: ISB (zp),Y. -/
def execIsbIndY (zp : Byte) (s : State) : Result :=
  modifyInstr (.indirectIndexedY zp) 8 State.isbResult State.isbAfter s
/-- R280, byte 0xF4: NOP zp,X. -/
def execNopZpXF4 (zp : Byte) (s : State) : Result := nopInstr (.zeroPageX zp) 4 false true s
/-- R273, byte 0xF7: ISB zp,X. -/
def execIsbZpX (zp : Byte) (s : State) : Result := modifyInstr (.zeroPageX zp) 6 State.isbResult State.isbAfter s
/-- R278, byte 0xFA: NOP. -/
def execNopFA (s : State) : Result := impliedInstr 2 id s
/-- R273, byte 0xFB: ISB addr,Y. -/
def execIsbAbsY (addr : Addr) (s : State) : Result := modifyInstr (.absoluteY addr) 7 State.isbResult State.isbAfter s
/-- R280, byte 0xFC: NOP addr,X. -/
def execNopAbsXFC (addr : Addr) (s : State) : Result := nopInstr (.absoluteX addr) 4 true true s
/-- R273, byte 0xFF: ISB addr,X. -/
def execIsbAbsX (addr : Addr) (s : State) : Result := modifyInstr (.absoluteX addr) 7 State.isbResult State.isbAfter s

end Sys2Proof.Machine
end

