-- ==== Sys2Proof/Machine/Unsupported.lean ====
section
/-!
DEFINITION. The meanings of the 25 unsupported opcode bytes (spec/49_unofficial.md R285, spec/30_encoding.md R125): each is the refusal the spec
names, with no register, memory, cycle count or PPU state changed.
-/

namespace Sys2Proof.Machine

/-- R285, byte 0x02: JAM (unsupported). -/
def execJam02 (_s : State) : Result := .refused (.unsupportedOpcode 0x02)
/-- R285, byte 0x0B: ANC (unsupported). -/
def execAnc0B (_s : State) : Result := .refused (.unsupportedOpcode 0x0B)
/-- R285, byte 0x12: JAM (unsupported). -/
def execJam12 (_s : State) : Result := .refused (.unsupportedOpcode 0x12)
/-- R285, byte 0x22: JAM (unsupported). -/
def execJam22 (_s : State) : Result := .refused (.unsupportedOpcode 0x22)
/-- R285, byte 0x2B: ANC (unsupported). -/
def execAnc2B (_s : State) : Result := .refused (.unsupportedOpcode 0x2B)
/-- R285, byte 0x32: JAM (unsupported). -/
def execJam32 (_s : State) : Result := .refused (.unsupportedOpcode 0x32)
/-- R285, byte 0x42: JAM (unsupported). -/
def execJam42 (_s : State) : Result := .refused (.unsupportedOpcode 0x42)
/-- R285, byte 0x4B: ALR (unsupported). -/
def execAlr4B (_s : State) : Result := .refused (.unsupportedOpcode 0x4B)
/-- R285, byte 0x52: JAM (unsupported). -/
def execJam52 (_s : State) : Result := .refused (.unsupportedOpcode 0x52)
/-- R285, byte 0x62: JAM (unsupported). -/
def execJam62 (_s : State) : Result := .refused (.unsupportedOpcode 0x62)
/-- R285, byte 0x6B: ARR (unsupported). -/
def execArr6B (_s : State) : Result := .refused (.unsupportedOpcode 0x6B)
/-- R285, byte 0x72: JAM (unsupported). -/
def execJam72 (_s : State) : Result := .refused (.unsupportedOpcode 0x72)
/-- R285, byte 0x8B: ANE (unsupported). -/
def execAne8B (_s : State) : Result := .refused (.unsupportedOpcode 0x8B)
/-- R285, byte 0x92: JAM (unsupported). -/
def execJam92 (_s : State) : Result := .refused (.unsupportedOpcode 0x92)
/-- R285, byte 0x93: SHA (unsupported). -/
def execSha93 (_s : State) : Result := .refused (.unsupportedOpcode 0x93)
/-- R285, byte 0x9B: TAS (unsupported). -/
def execTas9B (_s : State) : Result := .refused (.unsupportedOpcode 0x9B)
/-- R285, byte 0x9C: SHY (unsupported). -/
def execShy9C (_s : State) : Result := .refused (.unsupportedOpcode 0x9C)
/-- R285, byte 0x9E: SHX (unsupported). -/
def execShx9E (_s : State) : Result := .refused (.unsupportedOpcode 0x9E)
/-- R285, byte 0x9F: SHA (unsupported). -/
def execSha9F (_s : State) : Result := .refused (.unsupportedOpcode 0x9F)
/-- R285, byte 0xAB: LXA (unsupported). -/
def execLxaAB (_s : State) : Result := .refused (.unsupportedOpcode 0xAB)
/-- R285, byte 0xB2: JAM (unsupported). -/
def execJamB2 (_s : State) : Result := .refused (.unsupportedOpcode 0xB2)
/-- R285, byte 0xBB: LAS (unsupported). -/
def execLasBB (_s : State) : Result := .refused (.unsupportedOpcode 0xBB)
/-- R285, byte 0xCB: SBX (unsupported). -/
def execSbxCB (_s : State) : Result := .refused (.unsupportedOpcode 0xCB)
/-- R285, byte 0xD2: JAM (unsupported). -/
def execJamD2 (_s : State) : Result := .refused (.unsupportedOpcode 0xD2)
/-- R285, byte 0xF2: JAM (unsupported). -/
def execJamF2 (_s : State) : Result := .refused (.unsupportedOpcode 0xF2)

end Sys2Proof.Machine
end

