-- ==== Sys2Proof/Machine/Dispatch.lean ====
section
/-!
DEFINITION. The dispatch: one arm per constructor of `Instr`, one direct call of its meaning.
-/

namespace Sys2Proof.Machine

def exec (i : Instr) (s : State) : Host.Outcome State Fault Refusal :=
  match i with
  | .brk => Sys2Proof.Machine.execBrk s
  | .oraIndX zp => Sys2Proof.Machine.execOraIndX zp s
  | .jam02 => Sys2Proof.Machine.execJam02 s
  | .sloIndX zp => Sys2Proof.Machine.execSloIndX zp s
  | .nopZp04 zp => Sys2Proof.Machine.execNopZp04 zp s
  | .oraZp zp => Sys2Proof.Machine.execOraZp zp s
  | .aslZp zp => Sys2Proof.Machine.execAslZp zp s
  | .sloZp zp => Sys2Proof.Machine.execSloZp zp s
  | .php => Sys2Proof.Machine.execPhp s
  | .oraImm v => Sys2Proof.Machine.execOraImm v s
  | .aslAcc => Sys2Proof.Machine.execAslAcc s
  | .anc0B => Sys2Proof.Machine.execAnc0B s
  | .nopAbs0C addr => Sys2Proof.Machine.execNopAbs0C addr s
  | .oraAbs addr => Sys2Proof.Machine.execOraAbs addr s
  | .aslAbs addr => Sys2Proof.Machine.execAslAbs addr s
  | .sloAbs addr => Sys2Proof.Machine.execSloAbs addr s
  | .bpl off => Sys2Proof.Machine.execBpl off s
  | .oraIndY zp => Sys2Proof.Machine.execOraIndY zp s
  | .jam12 => Sys2Proof.Machine.execJam12 s
  | .sloIndY zp => Sys2Proof.Machine.execSloIndY zp s
  | .nopZpX14 zp => Sys2Proof.Machine.execNopZpX14 zp s
  | .oraZpX zp => Sys2Proof.Machine.execOraZpX zp s
  | .aslZpX zp => Sys2Proof.Machine.execAslZpX zp s
  | .sloZpX zp => Sys2Proof.Machine.execSloZpX zp s
  | .clc => Sys2Proof.Machine.execClc s
  | .oraAbsY addr => Sys2Proof.Machine.execOraAbsY addr s
  | .nop1A => Sys2Proof.Machine.execNop1A s
  | .sloAbsY addr => Sys2Proof.Machine.execSloAbsY addr s
  | .nopAbsX1C addr => Sys2Proof.Machine.execNopAbsX1C addr s
  | .oraAbsX addr => Sys2Proof.Machine.execOraAbsX addr s
  | .aslAbsX addr => Sys2Proof.Machine.execAslAbsX addr s
  | .sloAbsX addr => Sys2Proof.Machine.execSloAbsX addr s
  | .jsr addr => Sys2Proof.Machine.execJsr addr s
  | .andIndX zp => Sys2Proof.Machine.execAndIndX zp s
  | .jam22 => Sys2Proof.Machine.execJam22 s
  | .rlaIndX zp => Sys2Proof.Machine.execRlaIndX zp s
  | .bitZp zp => Sys2Proof.Machine.execBitZp zp s
  | .andZp zp => Sys2Proof.Machine.execAndZp zp s
  | .rolZp zp => Sys2Proof.Machine.execRolZp zp s
  | .rlaZp zp => Sys2Proof.Machine.execRlaZp zp s
  | .plp => Sys2Proof.Machine.execPlp s
  | .andImm v => Sys2Proof.Machine.execAndImm v s
  | .rolAcc => Sys2Proof.Machine.execRolAcc s
  | .anc2B => Sys2Proof.Machine.execAnc2B s
  | .bitAbs addr => Sys2Proof.Machine.execBitAbs addr s
  | .andAbs addr => Sys2Proof.Machine.execAndAbs addr s
  | .rolAbs addr => Sys2Proof.Machine.execRolAbs addr s
  | .rlaAbs addr => Sys2Proof.Machine.execRlaAbs addr s
  | .bmi off => Sys2Proof.Machine.execBmi off s
  | .andIndY zp => Sys2Proof.Machine.execAndIndY zp s
  | .jam32 => Sys2Proof.Machine.execJam32 s
  | .rlaIndY zp => Sys2Proof.Machine.execRlaIndY zp s
  | .nopZpX34 zp => Sys2Proof.Machine.execNopZpX34 zp s
  | .andZpX zp => Sys2Proof.Machine.execAndZpX zp s
  | .rolZpX zp => Sys2Proof.Machine.execRolZpX zp s
  | .rlaZpX zp => Sys2Proof.Machine.execRlaZpX zp s
  | .sec => Sys2Proof.Machine.execSec s
  | .andAbsY addr => Sys2Proof.Machine.execAndAbsY addr s
  | .nop3A => Sys2Proof.Machine.execNop3A s
  | .rlaAbsY addr => Sys2Proof.Machine.execRlaAbsY addr s
  | .nopAbsX3C addr => Sys2Proof.Machine.execNopAbsX3C addr s
  | .andAbsX addr => Sys2Proof.Machine.execAndAbsX addr s
  | .rolAbsX addr => Sys2Proof.Machine.execRolAbsX addr s
  | .rlaAbsX addr => Sys2Proof.Machine.execRlaAbsX addr s
  | .rti => Sys2Proof.Machine.execRti s
  | .eorIndX zp => Sys2Proof.Machine.execEorIndX zp s
  | .jam42 => Sys2Proof.Machine.execJam42 s
  | .sreIndX zp => Sys2Proof.Machine.execSreIndX zp s
  | .nopZp44 zp => Sys2Proof.Machine.execNopZp44 zp s
  | .eorZp zp => Sys2Proof.Machine.execEorZp zp s
  | .lsrZp zp => Sys2Proof.Machine.execLsrZp zp s
  | .sreZp zp => Sys2Proof.Machine.execSreZp zp s
  | .pha => Sys2Proof.Machine.execPha s
  | .eorImm v => Sys2Proof.Machine.execEorImm v s
  | .lsrAcc => Sys2Proof.Machine.execLsrAcc s
  | .alr4B => Sys2Proof.Machine.execAlr4B s
  | .jmpAbs addr => Sys2Proof.Machine.execJmpAbs addr s
  | .eorAbs addr => Sys2Proof.Machine.execEorAbs addr s
  | .lsrAbs addr => Sys2Proof.Machine.execLsrAbs addr s
  | .sreAbs addr => Sys2Proof.Machine.execSreAbs addr s
  | .bvc off => Sys2Proof.Machine.execBvc off s
  | .eorIndY zp => Sys2Proof.Machine.execEorIndY zp s
  | .jam52 => Sys2Proof.Machine.execJam52 s
  | .sreIndY zp => Sys2Proof.Machine.execSreIndY zp s
  | .nopZpX54 zp => Sys2Proof.Machine.execNopZpX54 zp s
  | .eorZpX zp => Sys2Proof.Machine.execEorZpX zp s
  | .lsrZpX zp => Sys2Proof.Machine.execLsrZpX zp s
  | .sreZpX zp => Sys2Proof.Machine.execSreZpX zp s
  | .cli => Sys2Proof.Machine.execCli s
  | .eorAbsY addr => Sys2Proof.Machine.execEorAbsY addr s
  | .nop5A => Sys2Proof.Machine.execNop5A s
  | .sreAbsY addr => Sys2Proof.Machine.execSreAbsY addr s
  | .nopAbsX5C addr => Sys2Proof.Machine.execNopAbsX5C addr s
  | .eorAbsX addr => Sys2Proof.Machine.execEorAbsX addr s
  | .lsrAbsX addr => Sys2Proof.Machine.execLsrAbsX addr s
  | .sreAbsX addr => Sys2Proof.Machine.execSreAbsX addr s
  | .rts => Sys2Proof.Machine.execRts s
  | .adcIndX zp => Sys2Proof.Machine.execAdcIndX zp s
  | .jam62 => Sys2Proof.Machine.execJam62 s
  | .rraIndX zp => Sys2Proof.Machine.execRraIndX zp s
  | .nopZp64 zp => Sys2Proof.Machine.execNopZp64 zp s
  | .adcZp zp => Sys2Proof.Machine.execAdcZp zp s
  | .rorZp zp => Sys2Proof.Machine.execRorZp zp s
  | .rraZp zp => Sys2Proof.Machine.execRraZp zp s
  | .pla => Sys2Proof.Machine.execPla s
  | .adcImm v => Sys2Proof.Machine.execAdcImm v s
  | .rorAcc => Sys2Proof.Machine.execRorAcc s
  | .arr6B => Sys2Proof.Machine.execArr6B s
  | .jmpInd ptr => Sys2Proof.Machine.execJmpInd ptr s
  | .adcAbs addr => Sys2Proof.Machine.execAdcAbs addr s
  | .rorAbs addr => Sys2Proof.Machine.execRorAbs addr s
  | .rraAbs addr => Sys2Proof.Machine.execRraAbs addr s
  | .bvs off => Sys2Proof.Machine.execBvs off s
  | .adcIndY zp => Sys2Proof.Machine.execAdcIndY zp s
  | .jam72 => Sys2Proof.Machine.execJam72 s
  | .rraIndY zp => Sys2Proof.Machine.execRraIndY zp s
  | .nopZpX74 zp => Sys2Proof.Machine.execNopZpX74 zp s
  | .adcZpX zp => Sys2Proof.Machine.execAdcZpX zp s
  | .rorZpX zp => Sys2Proof.Machine.execRorZpX zp s
  | .rraZpX zp => Sys2Proof.Machine.execRraZpX zp s
  | .sei => Sys2Proof.Machine.execSei s
  | .adcAbsY addr => Sys2Proof.Machine.execAdcAbsY addr s
  | .nop7A => Sys2Proof.Machine.execNop7A s
  | .rraAbsY addr => Sys2Proof.Machine.execRraAbsY addr s
  | .nopAbsX7C addr => Sys2Proof.Machine.execNopAbsX7C addr s
  | .adcAbsX addr => Sys2Proof.Machine.execAdcAbsX addr s
  | .rorAbsX addr => Sys2Proof.Machine.execRorAbsX addr s
  | .rraAbsX addr => Sys2Proof.Machine.execRraAbsX addr s
  | .nopImm80 v => Sys2Proof.Machine.execNopImm80 v s
  | .staIndX zp => Sys2Proof.Machine.execStaIndX zp s
  | .nopImm82 v => Sys2Proof.Machine.execNopImm82 v s
  | .saxIndX zp => Sys2Proof.Machine.execSaxIndX zp s
  | .styZp zp => Sys2Proof.Machine.execStyZp zp s
  | .staZp zp => Sys2Proof.Machine.execStaZp zp s
  | .stxZp zp => Sys2Proof.Machine.execStxZp zp s
  | .saxZp zp => Sys2Proof.Machine.execSaxZp zp s
  | .dey => Sys2Proof.Machine.execDey s
  | .nopImm89 v => Sys2Proof.Machine.execNopImm89 v s
  | .txa => Sys2Proof.Machine.execTxa s
  | .ane8B => Sys2Proof.Machine.execAne8B s
  | .styAbs addr => Sys2Proof.Machine.execStyAbs addr s
  | .staAbs addr => Sys2Proof.Machine.execStaAbs addr s
  | .stxAbs addr => Sys2Proof.Machine.execStxAbs addr s
  | .saxAbs addr => Sys2Proof.Machine.execSaxAbs addr s
  | .bcc off => Sys2Proof.Machine.execBcc off s
  | .staIndY zp => Sys2Proof.Machine.execStaIndY zp s
  | .jam92 => Sys2Proof.Machine.execJam92 s
  | .sha93 => Sys2Proof.Machine.execSha93 s
  | .styZpX zp => Sys2Proof.Machine.execStyZpX zp s
  | .staZpX zp => Sys2Proof.Machine.execStaZpX zp s
  | .stxZpY zp => Sys2Proof.Machine.execStxZpY zp s
  | .saxZpY zp => Sys2Proof.Machine.execSaxZpY zp s
  | .tya => Sys2Proof.Machine.execTya s
  | .staAbsY addr => Sys2Proof.Machine.execStaAbsY addr s
  | .txs => Sys2Proof.Machine.execTxs s
  | .tas9B => Sys2Proof.Machine.execTas9B s
  | .shy9C => Sys2Proof.Machine.execShy9C s
  | .staAbsX addr => Sys2Proof.Machine.execStaAbsX addr s
  | .shx9E => Sys2Proof.Machine.execShx9E s
  | .sha9F => Sys2Proof.Machine.execSha9F s
  | .ldyImm v => Sys2Proof.Machine.execLdyImm v s
  | .ldaIndX zp => Sys2Proof.Machine.execLdaIndX zp s
  | .ldxImm v => Sys2Proof.Machine.execLdxImm v s
  | .laxIndX zp => Sys2Proof.Machine.execLaxIndX zp s
  | .ldyZp zp => Sys2Proof.Machine.execLdyZp zp s
  | .ldaZp zp => Sys2Proof.Machine.execLdaZp zp s
  | .ldxZp zp => Sys2Proof.Machine.execLdxZp zp s
  | .laxZp zp => Sys2Proof.Machine.execLaxZp zp s
  | .tay => Sys2Proof.Machine.execTay s
  | .ldaImm v => Sys2Proof.Machine.execLdaImm v s
  | .tax => Sys2Proof.Machine.execTax s
  | .lxaAB => Sys2Proof.Machine.execLxaAB s
  | .ldyAbs addr => Sys2Proof.Machine.execLdyAbs addr s
  | .ldaAbs addr => Sys2Proof.Machine.execLdaAbs addr s
  | .ldxAbs addr => Sys2Proof.Machine.execLdxAbs addr s
  | .laxAbs addr => Sys2Proof.Machine.execLaxAbs addr s
  | .bcs off => Sys2Proof.Machine.execBcs off s
  | .ldaIndY zp => Sys2Proof.Machine.execLdaIndY zp s
  | .jamB2 => Sys2Proof.Machine.execJamB2 s
  | .laxIndY zp => Sys2Proof.Machine.execLaxIndY zp s
  | .ldyZpX zp => Sys2Proof.Machine.execLdyZpX zp s
  | .ldaZpX zp => Sys2Proof.Machine.execLdaZpX zp s
  | .ldxZpY zp => Sys2Proof.Machine.execLdxZpY zp s
  | .laxZpY zp => Sys2Proof.Machine.execLaxZpY zp s
  | .clv => Sys2Proof.Machine.execClv s
  | .ldaAbsY addr => Sys2Proof.Machine.execLdaAbsY addr s
  | .tsx => Sys2Proof.Machine.execTsx s
  | .lasBB => Sys2Proof.Machine.execLasBB s
  | .ldyAbsX addr => Sys2Proof.Machine.execLdyAbsX addr s
  | .ldaAbsX addr => Sys2Proof.Machine.execLdaAbsX addr s
  | .ldxAbsY addr => Sys2Proof.Machine.execLdxAbsY addr s
  | .laxAbsY addr => Sys2Proof.Machine.execLaxAbsY addr s
  | .cpyImm v => Sys2Proof.Machine.execCpyImm v s
  | .cmpIndX zp => Sys2Proof.Machine.execCmpIndX zp s
  | .nopImmC2 v => Sys2Proof.Machine.execNopImmC2 v s
  | .dcpIndX zp => Sys2Proof.Machine.execDcpIndX zp s
  | .cpyZp zp => Sys2Proof.Machine.execCpyZp zp s
  | .cmpZp zp => Sys2Proof.Machine.execCmpZp zp s
  | .decZp zp => Sys2Proof.Machine.execDecZp zp s
  | .dcpZp zp => Sys2Proof.Machine.execDcpZp zp s
  | .iny => Sys2Proof.Machine.execIny s
  | .cmpImm v => Sys2Proof.Machine.execCmpImm v s
  | .dex => Sys2Proof.Machine.execDex s
  | .sbxCB => Sys2Proof.Machine.execSbxCB s
  | .cpyAbs addr => Sys2Proof.Machine.execCpyAbs addr s
  | .cmpAbs addr => Sys2Proof.Machine.execCmpAbs addr s
  | .decAbs addr => Sys2Proof.Machine.execDecAbs addr s
  | .dcpAbs addr => Sys2Proof.Machine.execDcpAbs addr s
  | .bne off => Sys2Proof.Machine.execBne off s
  | .cmpIndY zp => Sys2Proof.Machine.execCmpIndY zp s
  | .jamD2 => Sys2Proof.Machine.execJamD2 s
  | .dcpIndY zp => Sys2Proof.Machine.execDcpIndY zp s
  | .nopZpXD4 zp => Sys2Proof.Machine.execNopZpXD4 zp s
  | .cmpZpX zp => Sys2Proof.Machine.execCmpZpX zp s
  | .decZpX zp => Sys2Proof.Machine.execDecZpX zp s
  | .dcpZpX zp => Sys2Proof.Machine.execDcpZpX zp s
  | .cld => Sys2Proof.Machine.execCld s
  | .cmpAbsY addr => Sys2Proof.Machine.execCmpAbsY addr s
  | .nopDA => Sys2Proof.Machine.execNopDA s
  | .dcpAbsY addr => Sys2Proof.Machine.execDcpAbsY addr s
  | .nopAbsXDC addr => Sys2Proof.Machine.execNopAbsXDC addr s
  | .cmpAbsX addr => Sys2Proof.Machine.execCmpAbsX addr s
  | .decAbsX addr => Sys2Proof.Machine.execDecAbsX addr s
  | .dcpAbsX addr => Sys2Proof.Machine.execDcpAbsX addr s
  | .cpxImm v => Sys2Proof.Machine.execCpxImm v s
  | .sbcIndX zp => Sys2Proof.Machine.execSbcIndX zp s
  | .nopImmE2 v => Sys2Proof.Machine.execNopImmE2 v s
  | .isbIndX zp => Sys2Proof.Machine.execIsbIndX zp s
  | .cpxZp zp => Sys2Proof.Machine.execCpxZp zp s
  | .sbcZp zp => Sys2Proof.Machine.execSbcZp zp s
  | .incZp zp => Sys2Proof.Machine.execIncZp zp s
  | .isbZp zp => Sys2Proof.Machine.execIsbZp zp s
  | .inx => Sys2Proof.Machine.execInx s
  | .sbcImm v => Sys2Proof.Machine.execSbcImm v s
  | .nop => Sys2Proof.Machine.execNop s
  | .sbcImmEB v => Sys2Proof.Machine.execSbcImmEB v s
  | .cpxAbs addr => Sys2Proof.Machine.execCpxAbs addr s
  | .sbcAbs addr => Sys2Proof.Machine.execSbcAbs addr s
  | .incAbs addr => Sys2Proof.Machine.execIncAbs addr s
  | .isbAbs addr => Sys2Proof.Machine.execIsbAbs addr s
  | .beq off => Sys2Proof.Machine.execBeq off s
  | .sbcIndY zp => Sys2Proof.Machine.execSbcIndY zp s
  | .jamF2 => Sys2Proof.Machine.execJamF2 s
  | .isbIndY zp => Sys2Proof.Machine.execIsbIndY zp s
  | .nopZpXF4 zp => Sys2Proof.Machine.execNopZpXF4 zp s
  | .sbcZpX zp => Sys2Proof.Machine.execSbcZpX zp s
  | .incZpX zp => Sys2Proof.Machine.execIncZpX zp s
  | .isbZpX zp => Sys2Proof.Machine.execIsbZpX zp s
  | .sed => Sys2Proof.Machine.execSed s
  | .sbcAbsY addr => Sys2Proof.Machine.execSbcAbsY addr s
  | .nopFA => Sys2Proof.Machine.execNopFA s
  | .isbAbsY addr => Sys2Proof.Machine.execIsbAbsY addr s
  | .nopAbsXFC addr => Sys2Proof.Machine.execNopAbsXFC addr s
  | .sbcAbsX addr => Sys2Proof.Machine.execSbcAbsX addr s
  | .incAbsX addr => Sys2Proof.Machine.execIncAbsX addr s
  | .isbAbsX addr => Sys2Proof.Machine.execIsbAbsX addr s

end Sys2Proof.Machine
end

