-- ==== Sys2Proof/Machine/Clock.lean ====
section
/-!
DEFINITION. The instruction step (spec/60_exceptions.md R300 to R303), the PPU's timing state machine (R340 to R343),
interrupt servicing (R310 to R315) and the Clock step that ties them together (R320 to R322); the queue of host inputs.
-/

namespace Sys2Proof.Machine

/-! ## Fetch -/

/-- The byte at PC, as the fetch reads it (R122, R300). -/
def State.fetchByte (s : State) : Byte := s.cpuRead s.pc

/-- The effect of fetching one byte: the read's own side effect (R84), then PC + 1 modulo 2^16. -/
def State.afterFetchByte (s : State) : State := (s.afterRead s.pc).setPc (s.pc + 1)

/-- The state after fetching n bytes. -/
def State.afterFetch : Nat → State → State
  | 0, s => s
  | n + 1, s => State.afterFetch n s.afterFetchByte

/-- The n bytes the fetch reads, in order. -/
def State.fetchBytes : Nat → State → List Byte
  | 0, _ => []
  | n + 1, s => s.fetchByte :: State.fetchBytes n s.afterFetchByte

/-- The instruction at PC: the table entry of the opcode byte, with the operand bytes that follow it (R120, R300). An
entry of length 1 or 2 ignores the bytes past its length, and the fetch does not read them (`afterFetch` below). -/
def State.fetchInstr (s : State) : Instr :=
  decodeOp s.fetchByte (State.afterFetch 1 s).fetchByte (State.afterFetch 2 s).fetchByte

/-- `ExecuteSingleInstruction()` (R300): fetch the opcode and exactly its operand bytes (R127), then run the meaning.
A fetch that refused (a FourScreen access through 0x2007) ends the step before the meaning. -/
def executeSingle (s : State) : Result :=
  let s1 := State.afterFetch (instrLength s.fetchByte) s
  match s1.refused with
  | some r => .refused r
  | none => exec s.fetchInstr s1

/-! ## The PPU tick, R340 to R343 -/

/-- Dots in a scanline. -/
def dotsPerLine : Nat := 341

/-- The first part of the tick: dot, wrap, scanline, and the frame wrap, which clears VBlank and SpriteZeroHit but not
SpriteOverflow (R342, D33). -/
def Ppu.advance (p : Ppu) : Ppu :=
  if p.dot + 1 = dotsPerLine then
    if p.scanline + 1 = 261 then
      { p with dot := 0, scanline := -1,
               status := setBit (setBit p.status bitVBlank false) bitSpriteZeroHit false }
    else { p with dot := 0, scanline := p.scanline + 1 }
  else { p with dot := p.dot + 1 }

/-- R341: at scanline 241, dot 1, VBlank is set and, with EnableNmi, the NMI edge fires. -/
def Ppu.vblankStart (p : Ppu) : Ppu :=
  if p.scanline = 241 ∧ p.dot = 1 then
    { p with status := setBit p.status bitVBlank true, nmiPending := p.nmiPending || p.enableNmi }
  else p

/-- What the oracle answers at a raster position: (hit, over), (false, false) where no draw names it (R343). -/
def oracleAt : List RenderDraw → Int → Nat → Bool × Bool
  | [], _, _ => (false, false)
  | d :: rest, scanline, dot =>
    if d.scanline = scanline ∧ d.dot = dot then (d.hit, d.overflow) else oracleAt rest scanline dot

/-- `RenderDraw` of R343 on the visible scanlines, 0 .. 239: it only ever sets a bit. -/
def Ppu.renderDraw (draws : List RenderDraw) (p : Ppu) : Ppu :=
  if 0 ≤ p.scanline ∧ p.scanline ≤ 239 then
    let o := oracleAt draws p.scanline p.dot
    let st1 := if o.1 then setBit p.status bitSpriteZeroHit true else p.status
    { p with status := if o.2 then setBit st1 bitSpriteOverflow true else st1 }
  else p

/-- `PpuTick(oracle)` of R340: the state after it. -/
def Ppu.tick (draws : List RenderDraw) (p : Ppu) : Ppu := p.advance.vblankStart.renderDraw draws

/-- What `PpuTick(oracle)` returns: whether this tick completes a frame (R342). -/
def Ppu.tickCompletesFrame (p : Ppu) : Bool :=
  decide (p.dot + 1 = dotsPerLine) && decide (p.scanline + 1 = 261)

/-- The PPU after n ticks. -/
def Ppu.ticks (draws : List RenderDraw) : Nat → Ppu → Ppu
  | 0, p => p
  | n + 1, p => Ppu.ticks draws n (p.tick draws)

/-- The frame-complete events of those n ticks. -/
def Ppu.frames (draws : List RenderDraw) : Nat → Ppu → Nat
  | 0, _ => 0
  | n + 1, p => p.tickCompletesFrame.toNat + Ppu.frames draws n (p.tick draws)

/-- Run the PPU n ticks inside the machine. -/
def State.runPpu (s : State) (draws : List RenderDraw) (n : Nat) : State := s.setPpu (s.ppu.ticks draws n)

/-! ## The Clock step, R320 -/

/-- PPU ticks for each CPU cycle (R7, R321). -/
def ticksPerCycle : Nat := 3

/-- The cycles of an NMI entry (R310) and of an IRQ entry (R311, D7). -/
def interruptCycles : Nat := 8

/-- The OAM DMA stall, from the cycle counter after the writing instruction's own cycles (R81, D29). -/
def dmaStall (cyc : Nat) : Nat := if cyc % 2 = 0 then 513 else 514

/-- The interrupt entry at the end of a step, if one is due: NMI first (R314), IRQ only while I is clear (R311).
An edge raised in the ticks of an entry stays pending (D10). -/
inductive Pending where
  | nmi
  | irq
  | none
  deriving DecidableEq, Repr

/-- Which entry is due. -/
def pendingInterrupt (irqLine : Bool) (s : State) : Pending :=
  if s.ppu.nmiPending then .nmi
  else if irqLine && !s.flag bitI then .irq
  else .none

/-- The entry itself, with its 8 cycles: the NMI latch is cleared as the NMI is delivered (R40). -/
def takeInterrupt (k : Pending) (s : State) : State :=
  match k with
  | .nmi => ((s.setPpu { s.ppu with nmiPending := false }).nmi).addCycles interruptCycles
  | .irq => s.irq.addCycles interruptCycles
  | .none => s

/-- The PPU ticks that follow an entry: 24, or none. -/
def interruptTicks (k : Pending) : Nat :=
  match k with
  | .none => 0
  | _ => ticksPerCycle * interruptCycles

/-- The part of the Clock step after the instruction, with the frame-complete events it returns. `c` is what the
instruction returned: the cycles it added to `cyc`. -/
def finishClock (inp : HostInput) (c : Nat) (t : State) : State × Nat :=
  let stall := if t.dmaThisStep then dmaStall t.cyc else 0
  let n := ticksPerCycle * (c + stall)
  let t1 := (t.addCycles stall).runPpu inp.draws n
  let k := pendingInterrupt inp.irqLine t1
  let t2 := takeInterrupt k t1
  (t2.runPpu inp.draws (interruptTicks k),
    t.ppu.frames inp.draws n + t2.ppu.frames inp.draws (interruptTicks k))

/-- `Bus.Clock()` (R320): one instruction, its PPU ticks, at most one interrupt entry. A machine that holds a refusal
has no further step (R302). -/
def clock (inp : HostInput) (s : State) : Host.Outcome (State × Nat) Fault Refusal :=
  match s.refused with
  | some r => .refused r
  | none =>
    match executeSingle (s.setDmaThisStep false) with
    | .next t => .next (finishClock inp (t.cyc - s.cyc) t)
    | .fault f => .fault f
    | .refused r => .refused r

/-! ## Host inputs -/

/-- What the host supplies for the next Clock: the head of the queue, or the defaults (R7, R49). -/
def State.nextInput (s : State) : HostInput := s.inputs.headD HostInput.default

/-- `SetButtonState(b)` (R362). -/
def State.setButtons (s : State) (b : Byte) : State := { s with pad := { s.pad with buttons := b } }

/-- Take the head of the queue: the buttons are set before the Clock (R362). -/
def State.takeInput (s : State) : State :=
  let s1 : State := match s.nextInput.buttons with
    | some b => s.setButtons b
    | none => s
  { s1 with inputs := s.inputs.tail }

/-- One Clock with the inputs the queue holds for it, less the frame events. -/
def clockNext (s : State) : Result :=
  match clock s.nextInput s.takeInput with
  | .next r => .next r.1
  | .fault f => .fault f
  | .refused r => .refused r

end Sys2Proof.Machine
end

