-- ==== Sys2Proof/Machine/Interface.lean ====
section
/-!
DEFINITION. The block's interface with the outside (spec/60_exceptions.md R365) beside the Clock step: building the
cartridge (spec/20_memory.md R100 to R103), power-on and Reset (spec/70_reset_and_hazards.md R370 to R373), the refusal
mark a host observes (R302), the trace tuple (R332), and the loader the fixed name `withFetchWord` stands for.
-/

namespace Sys2Proof.Machine

/-! ## Create, R100 -/

/-- Why no cartridge is produced (R100, R101). -/
inductive LoadError where
  | truncated
  | badMagic
  | unsupportedMapper
  | unsupportedPrgSize
  deriving DecidableEq, Repr

/-- The four magic bytes of R100. -/
def inesMagic : List Byte := [0x4E, 0x45, 0x53, 0x1A]

/-- The header of R100 from its 16 bytes; bytes 8 to 15 are ignored (D25). -/
def headerOf (bytes : List Byte) : Header :=
  let flags6 := bytes.getD 6 0
  let flags7 := bytes.getD 7 0
  { prgBanks := (bytes.getD 4 0).toNat,
    chrBanks := (bytes.getD 5 0).toNat,
    mapperId := (flags7 &&& 0xF0#8) ||| (flags6 >>> 4),
    mirroring := if flags6.getLsbD 0 then .vertical else .horizontal,
    trainer := flags6.getLsbD 2,
    battery := flags6.getLsbD 1 }

/-- The PRG bytes' offset: the trainer, if present, is skipped (R103). -/
def prgOffset (h : Header) : Nat := 16 + if h.trainer then 512 else 0

/-- The size of PRG ROM. -/
def prgSize (h : Header) : Nat := Config.prgBankSize * h.prgBanks

/-- The size of CHR ROM, 0 with CHR RAM. -/
def chrSize (h : Header) : Nat := Config.chrBankSize * h.chrBanks

/-- `Create(bytes)` of R100, its checks in R100's order. `chrRam` and `prgRam` are the power-on contents of the
cartridge's RAMs (part of MEM_INIT). -/
def create (bytes : List Byte) (chrRam prgRam : Memory) : Except LoadError Cartridge :=
  let h := headerOf bytes
  let off := prgOffset h
  if bytes.length < 16 then .error .truncated
  else if bytes.take 4 ≠ inesMagic then .error .badMagic
  else if h.mapperId ≠ 0 then .error .unsupportedMapper
  else if h.prgBanks ≠ 1 ∧ h.prgBanks ≠ 2 then .error .unsupportedPrgSize
  else if bytes.length < off + prgSize h + chrSize h then .error .truncated
  else .ok
    { header := h,
      prg := Memory.ofBytes ((bytes.drop off).take (prgSize h)),
      chr := if h.chrBanks > 0 then Memory.ofBytes ((bytes.drop (off + prgSize h)).take (chrSize h)) else chrRam,
      prgRam := prgRam }

/-! ## Reset and power-on -/

/-- `ControllerReset()`: strobe and index; the buttons are the host's (D32). -/
def Controller.reset (c : Controller) : Controller := { c with strobe := false, index := 0 }

/-- `CpuReset()` of R370: it pushes nothing and writes no memory. -/
def State.cpuReset (s : State) : State :=
  { s.afterRead16 0xFFFC with
    pc := s.read16 0xFFFC, a := 0, x := 0, y := 0, sp := 0xFD, p := 0x20, cyc := 7 }

/-- `BusReset()` of R371, with R372's `dma_this_step`: everything else persists. -/
def State.busReset (s : State) : State :=
  let s1 := { s with pad := s.pad.reset,
                     ppu := Ppu.afterReset s.ppu.vram s.ppu.palette s.ppu.oam,
                     dmaThisStep := false }
  s1.cpuReset

/-- MEM_INIT (R373), less the cartridge's RAMs, which `create` takes. -/
structure MemInit where
  ram : Memory
  vram : Memory
  palette : Memory
  oam : Memory
  deriving DecidableEq, Repr

/-- Power-on (R373): every register as Reset leaves it, no button pressed, no illegal write, no refusal. -/
def powerOn (cart : Cartridge) (params : Config.Params) (init : MemInit) : State :=
  State.busReset
    { a := 0, x := 0, y := 0, sp := 0, p := 0, pc := 0, cyc := 0,
      ram := init.ram, ppu := Ppu.afterReset init.vram init.palette init.oam,
      pad := { buttons := 0x00, strobe := false, index := 0 },
      cart := cart, illegalWrite := false, illegalWrites := [], refused := none, dmaThisStep := false,
      params := params, inputs := [] }

/-! ## What the host observes -/

/-- The machine the host sees after one call of `Clock()`: after a refusal it is the state before the step with
`refused` set (R302); with it the number of frame-complete events. -/
def hostClock (inp : HostInput) (s : State) : State × Nat :=
  match clock inp s with
  | .next r => r
  | .refused r => ({ s with refused := some r }, 0)
  | .fault _ => (s, 0)

/-- The golden-log tuple of R332. -/
structure Trace where
  pc : Addr
  a : Byte
  x : Byte
  y : Byte
  sp : Byte
  sr : Byte
  cyc : Nat
  deriving DecidableEq, Repr

/-- The tuple at an instruction boundary. -/
def State.trace (s : State) : Trace :=
  { pc := s.pc, a := s.a, x := s.x, y := s.y, sp := s.sp, sr := s.p, cyc := s.cyc }

/-! ## Placing an instruction where the next fetch reads it -/

/-- A byte placed from outside into the memory a CPU address names: RAM, PRG ROM (the cartridge is loaded from
outside) or PRG RAM. Any other address is no memory, and the state is left. -/
def State.poke (s : State) (addr : Addr) (v : Byte) : State :=
  match s.busTarget addr with
  | .ram i => { s with ram := s.ram.write i v }
  | .prgRom i => { s with cart := { s.cart with prg := s.cart.prg.write i v } }
  | .prgRam i => { s with cart := { s.cart with prgRam := s.cart.prgRam.write i v } }
  | _ => s

/-- Whether a CPU address names a memory. -/
def State.holdsByte (s : State) (addr : Addr) : Bool :=
  match s.busTarget addr with
  | .ram _ => true
  | .prgRom _ => true
  | .prgRam _ => true
  | _ => false

/-- PC if three bytes can be placed there, else the first address of PRG ROM. -/
def State.loadAddress (s : State) : Addr :=
  if s.holdsByte s.pc && s.holdsByte (s.pc + 1) && s.holdsByte (s.pc + 2) then s.pc else 0x8000

/-- The three bytes of an opcode-table word (the longest instruction has three, R120), placed at the next fetch. A
refusal mark would keep the machine from stepping at all, so it is cleared. -/
def State.placeInstr (s : State) (bytes : List Byte) : State :=
  let at0 := s.loadAddress
  let s1 := { s with pc := at0, refused := none }
  ((s1.poke at0 (bytes.getD 0 0)).poke (at0 + 1) (bytes.getD 1 0)).poke (at0 + 2) (bytes.getD 2 0)

end Sys2Proof.Machine
end

