-- ==== Sys2Proof/Machine/Step.lean ====
section
/-!
DEFINITION. One step of the block: `Bus.Clock()` (spec/60_exceptions.md R320) with the inputs the host has queued for
it; and the word placed where that step fetches.
-/

namespace Sys2Proof.Machine

/-- One step. -/
def step (s : State) : Host.Outcome State Fault Refusal := clockNext s

/-- `s` with the instruction whose bits are `w`, numbered as spec/opcode_table.json numbers them, stored where `step`
fetches its next instruction; bits at and above `nbits` are 0. -/
def State.withFetchWord (s : State) (nbits w : Nat) : State := s.placeInstr (tableBytes nbits w)

end Sys2Proof.Machine
end

