-- ==== Sys2Proof/Machine/Timing.lean ====
section
/-!
DEFINITION. The timing table of the instruction set by family and mode (spec/70_reset_and_hazards.md R391) and the
operations that take the page-cross penalty (spec/40_addressing_modes.md R155). The meanings under Machine/ carry the
numbers of spec/opcode_table.json row by row; this is the same data in the shape R391 and R155 give it, and the
statements hold the one against the other.
-/

namespace Sys2Proof

/-- R391, the rows of the read instructions, of LAX and of the unofficial NOPs. -/
def readCycles : Mode → Nat
  | .immediate => 2
  | .zeroPage => 3
  | .zeroPageX => 4
  | .zeroPageY => 4
  | .absolute => 4
  | .absoluteX => 4
  | .absoluteY => 4
  | .indexedIndirectX => 6
  | .indirectIndexedY => 5
  | _ => 2

/-- R391, the rows of STA, STX, STY and SAX. -/
def storeCycles : Mode → Nat
  | .absoluteX => 5
  | .absoluteY => 5
  | .indirectIndexedY => 6
  | m => readCycles m

/-- R391, the rows of the shifts, of INC and DEC, and of the six combined instructions. -/
def modifyCycles : Mode → Nat
  | .zeroPage => 5
  | .zeroPageX => 6
  | .absolute => 6
  | .absoluteX => 7
  | .absoluteY => 7
  | .indexedIndirectX => 8
  | .indirectIndexedY => 8
  | _ => 2

/-- The base cycles of R391. An Unsupported entry has none. -/
def Operation.baseCycles (op : Operation) (m : Mode) : Nat :=
  match op with
  | .lda | .ldx | .ldy | .adc | .sbc | .and | .eor | .ora | .cmp | .cpx | .cpy | .bit | .lax | .nop => readCycles m
  | .sta | .stx | .sty | .sax => storeCycles m
  | .asl | .lsr | .rol | .ror | .inc | .dec | .dcp | .isb | .slo | .rla | .sre | .rra => modifyCycles m
  | .tax | .tay | .tsx | .txa | .txs | .tya | .inx | .iny | .dex | .dey => 2
  | .clc | .cld | .cli | .clv | .sec | .sed | .sei => 2
  | .bcc | .bcs | .beq | .bmi | .bne | .bpl | .bvc | .bvs => 2
  | .pha | .php => 3
  | .pla | .plp => 4
  | .jmp => if m = .indirect then 5 else 3
  | .jsr => 6
  | .rts | .rti => 6
  | .brk => 7
  | .unsupported => 0

/-- The modes whose page crossing can cost a cycle. -/
def Mode.mayCross : Mode → Bool
  | .absoluteX => true
  | .absoluteY => true
  | .indirectIndexedY => true
  | _ => false

/-- R155 "Care". Among the NOPs only AbsoluteX has such a mode. -/
def Operation.cares : Operation → Bool
  | .lda | .ldx | .ldy | .adc | .sbc | .and | .eor | .ora | .cmp | .lax | .nop => true
  | _ => false

/-- Base and page-cross penalty (R155, R300): the cycles of an instruction that is no branch. -/
def Instr.cycles (i : Instr) (crossed : Bool) : Nat :=
  i.operation.baseCycles i.mode + if i.mode.mayCross && i.operation.cares && crossed then 1 else 0

end Sys2Proof
end

