-- ==== Sys2Proof/Safety.lean ====
section
/-!
DEFINITION. What a safe state and a safe run are, in the terms the statements use: a state whose next accesses cannot
refuse, a run that does not stop, and the invariant every step keeps.
-/

namespace Sys2Proof.Machine

/-- No refusal is held and the mirroring is one the loader produces (R32, R102, D21): no bus access from here refuses. -/
abbrev State.Ready (s : State) : Prop := s.refused = none ∧ s.mirroring ≠ .fourScreen

/-- A run of n steps that does not stop. -/
def State.RunsFor (n : Nat) (s : State) : Prop := ∃ t, Sys2Proof.core.run n s = .next t

/-- The canonical form of one memory of the given size. -/
abbrev Memory.Canonical (m : Memory) (size : Nat) : Prop := m.wf = true ∧ m.within size = true

/-- The size of the cartridge's CHR: its ROM, or 8 KB of RAM (R48). -/
def Header.chrBytes (h : Header) : Nat :=
  if h.chrBanks = 0 then Config.chrBankSize else Config.chrBankSize * h.chrBanks

/-- The PPU's part of the invariant: status bits 4:0 read 0 (R35), the raster counters are in range (R41), the memories
have their canonical form and size (R43 to R45). -/
structure Ppu.Inv (p : Ppu) : Prop where
  statusLow : p.status &&& 0x1F#8 = 0#8
  dotRange : p.dot ≤ 340
  scanlineRange : -1 ≤ p.scanline ∧ p.scanline ≤ 260
  vram : p.vram.Canonical Config.vramSize
  palette : p.palette.Canonical Config.paletteSize
  oam : p.oam.Canonical Config.oamSize

/-- The invariant of the block at every instruction boundary. -/
structure State.Inv (s : State) : Prop where
  /-- R27 `P.B = 0`. -/
  breakClear : s.flag bitB = false
  /-- R27 `P.U = 1`. -/
  unusedSet : s.flag bitU = true
  /-- R30. -/
  ram : s.ram.Canonical Config.ramSize
  ppu : s.ppu.Inv
  /-- R360 "index is therefore always in 0..8". -/
  index : s.pad.index ≤ 8
  /-- R48. -/
  chr : s.cart.chr.Canonical s.cart.header.chrBytes
  /-- R48. -/
  prgRam : s.cart.prgRam.Canonical Config.prgRamSize
  /-- R48. -/
  prg : s.cart.prg.Canonical (Config.prgBankSize * s.cart.header.prgBanks)
  /-- R31: the flag is raised exactly when an address is recorded. -/
  illegal : s.illegalWrite = !s.illegalWrites.isEmpty
  /-- R32: a machine that steps holds no refusal. -/
  running : s.refused = none

end Sys2Proof.Machine
end

