-- ==== Sys2Proof/Certificates/Slice0/Obligations.lean ====
section
/-!
DEFINITION. The statements about the model, each of a numbered rule of spec/ or derived from its files, with the few
definitions they share. `exec i s` is run with PC already past the instruction's bytes, as a mode of R140 leaves it;
`StepRunsDecodedInstruction` says how a step brings that about.
-/

open Sys2Proof Sys2Proof.Machine

namespace Sys2Proof.Rules

/-- The encodings of an operation: these modes with these opcode bytes, and no others, both as the instructions say
and as the decoder reads the bytes. -/
def HasEncodings (op : Operation) (l : List (Mode × Byte)) : Prop :=
  (∀ i : Instr, i.operation = op ↔ (i.mode, i.opcode) ∈ l) ∧
  ∀ e ∈ l, ∀ lo hi : Byte, (decodeOp e.2 lo hi).operation = op ∧ (decodeOp e.2 lo hi).mode = e.1

/-- The 25 bytes of R125, in its order. -/
def unsupportedBytes : List Byte :=
  [0x02, 0x12, 0x22, 0x32, 0x42, 0x52, 0x62, 0x72, 0x92, 0xB2, 0xD2, 0xF2, 0x0B, 0x2B, 0x4B, 0x6B, 0x8B, 0x93, 0x9F,
   0x9B, 0x9C, 0x9E, 0xAB, 0xBB, 0xCB]

/-- The index in RAM of the stack byte a stack pointer addresses. -/
def stackIndex (sp : Byte) : Nat := 0x0100 + sp.toNat

/-- What `AddCore(m)` of R200 makes of A and P. -/
def addCoreOf (t : State) (m : Byte) : State :=
  let sum := t.a.toNat + m.toNat + (t.p.getLsbD 0).toNat
  let r := BitVec.ofNat 8 sum
  { t with a := r, p := nzBits (setBit (setBit t.p 0 (decide (sum > 0xFF))) 6
      ((~~~(t.a ^^^ m) &&& (t.a ^^^ r) &&& 0x80#8) != 0#8)) r }

/-- What `Compare(reg, m)` of R232 makes of P. -/
def compareOf (p reg m : Byte) : Byte :=
  setBit (setBit (setBit p 0 (decide (m.toNat ≤ reg.toNat))) 1 (reg == m)) 7 ((reg - m).getLsbD 7)

/-- A read-modify-write of the operand: M is read once and `r` of it written once (to A in Accumulator mode), and then
`f` is the rest of the instruction. -/
def ModifiesTo (i : Instr) (s : State) (r : Byte → Byte) (f : State → Byte → Byte → State) : Prop :=
  let m := loadOperand i.operand s
  let n := s.cyc + i.cycles false
  (i.mode = .accumulator → exec i s = .next { f { s with a := r s.a } s.a (r s.a) with cyc := n }) ∧
  (i.mode ≠ .accumulator → ∃ ea, m.ea = some ea ∧
    exec i s = .next { f (m.st.cpuWrite ea (r m.value)) m.value (r m.value) with cyc := n })

/-- The outcome of a branch (R240): PC is the address of the next instruction. -/
def branchOutcome (taken : Bool) (off : Int) (s : State) : Result :=
  let ea := s.pc + BitVec.ofInt 16 off
  if taken then
    .next { s with pc := ea, cyc := s.cyc + 2 + (1 + if (s.pc &&& 0xFF00#16) ≠ (ea &&& 0xFF00#16) then 1 else 0) }
  else .next { s with cyc := s.cyc + 2 }

/-- The five things the interrupt entries and BRK share (R312): the return address and a status byte are pushed, I is
set, PC is loaded from the vector, and the rest of the state is as it was. -/
def entryOf (s : State) (ret : Addr) (status : Byte) (vector : Addr) : State :=
  { s with
    ram := ((s.ram.write (stackIndex s.sp) (hiByte ret)).write (stackIndex (s.sp - 1)) (loByte ret)).write
      (stackIndex (s.sp - 2)) status,
    sp := s.sp - 3, p := setBit s.p 2 true, pc := s.read16 vector }

/-- A mode run from PC at the first operand byte (R140): the operand bytes are fetched, then the mode's own reads are
made. -/
def runMode (op : Byte) (s : State) : Resolved :=
  resolve (decodeOp op s.fetchByte s.afterFetchByte.fetchByte).operand
    (State.afterFetch (decodeOp op 0 0).mode.operandBytes s)

/-- The mode of an opcode byte. -/
def modeOf (op : Byte) : Mode := (decodeOp op 0 0).mode

/-- `(hi << 8) | lo` of the two operand bytes at PC. -/
def fetchedWord (s : State) : Addr := joinBytes s.afterFetchByte.fetchByte s.fetchByte

/-- Whether the pages of two addresses differ, as R148 writes it. -/
def pagesDiffer (base ea : Addr) : Bool := (base &&& 0xFF00#16) != (ea &&& 0xFF00#16)

/-! ## What an instruction may write, for the frames -/

/-- The instructions that write A. -/
def writesA (i : Instr) : Bool :=
  match i.operation with
  | .lda | .txa | .tya | .pla | .adc | .sbc | .and | .eor | .ora | .lax | .isb | .slo | .rla | .sre | .rra => true
  | .asl | .lsr | .rol | .ror => i.mode == .accumulator
  | _ => false

/-- R21 "It is written by LDX, TAX, TSX, DEX, INX and LAX". -/
def writesX (i : Instr) : Bool :=
  match i.operation with
  | .ldx | .tax | .tsx | .dex | .inx | .lax => true
  | _ => false

/-- R22 "It is written by LDY, TAY, DEY and INY". -/
def writesY (i : Instr) : Bool :=
  match i.operation with
  | .ldy | .tay | .dey | .iny => true
  | _ => false

/-- R23: TXS, every push and pull, RTI and RTS. -/
def writesSp (i : Instr) : Bool :=
  match i.operation with
  | .txs | .pha | .php | .pla | .plp | .jsr | .rts | .brk | .rti => true
  | _ => false

/-- The instructions that write PC beyond their own fetch. -/
def writesPc (i : Instr) : Bool :=
  match i.operation with
  | .bcc | .bcs | .beq | .bmi | .bne | .bpl | .bvc | .bvs | .jmp | .jsr | .rts | .brk | .rti => true
  | _ => false

/-- R29, the row of C. -/
def writesC : Operation → Bool
  | .adc | .sbc | .cmp | .cpx | .cpy | .asl | .lsr | .rol | .ror | .clc | .sec | .plp | .rti | .dcp | .isb | .slo
  | .rla | .sre | .rra => true
  | _ => false

/-- R29, the row of Z; the row of N is "same list as Z". -/
def writesNZ : Operation → Bool
  | .lda | .ldx | .ldy | .tax | .tay | .tsx | .txa | .tya | .inc | .dec | .inx | .iny | .dex | .dey | .adc | .sbc
  | .and | .eor | .ora | .asl | .lsr | .rol | .ror | .cmp | .cpx | .cpy | .bit | .pla | .plp | .rti | .lax | .dcp
  | .isb | .slo | .rla | .sre | .rra => true
  | _ => false

/-- R29, the row of V. -/
def writesV : Operation → Bool
  | .adc | .sbc | .bit | .clv | .plp | .rti | .isb | .rra => true
  | _ => false

/-- The writers of each flag among the instructions, the table of R29 by bit: 0 is C, 7 is N. -/
def writesFlag (op : Operation) (bit : Nat) : Bool :=
  match bit with
  | 0 => writesC op
  | 1 => writesNZ op
  | 2 => op == .sei || op == .cli || op == .plp || op == .rti || op == .brk
  | 3 => op == .sed || op == .cld || op == .plp || op == .rti
  | 4 => op == .plp || op == .rti
  | 5 => op == .plp || op == .rti
  | 6 => writesV op
  | 7 => writesNZ op
  | _ => false

/-- The addresses an instruction stores one byte to: its effective address, computed as the meaning computes it, or the
stack bytes it pushes. -/
def storedAddrs (i : Instr) (s : State) : List Addr :=
  match i.operation with
  | .sta | .stx | .sty | .sax => (resolve i.operand s).ea.toList
  | .asl | .lsr | .rol | .ror | .inc | .dec | .dcp | .isb | .slo | .rla | .sre | .rra =>
    (loadOperand i.operand s).ea.toList
  | .pha | .php => [stackAddr s.sp]
  | .jsr => [stackAddr s.sp, stackAddr (s.sp - 1)]
  | .brk => [stackAddr s.sp, stackAddr (s.sp - 1), stackAddr (s.sp - 2)]
  | _ => []

/-- The addresses, other than the stack, the zero page and the vectors (which are memory), that an instruction reads:
JMP's pointer, and the operand of an instruction that reads it. -/
def readAddrs (i : Instr) (s : State) : List Addr :=
  (match i.operand with
    | .indirect ptr => [ptr, indirectHi ptr]
    | _ => []) ++
  (match i.operation with
    | .lda | .ldx | .ldy | .adc | .sbc | .and | .eor | .ora | .cmp | .cpx | .cpy | .bit | .lax
    | .asl | .lsr | .rol | .ror | .inc | .dec | .dcp | .isb | .slo | .rla | .sre | .rra =>
      (match i.operand with
        | .immediate _ => []
        | _ => (loadOperand i.operand s).ea.toList)
    | .nop => if s.params.nopReadsOperand then (resolve i.operand s).ea.toList else []
    | _ => [])

/-! ## The raster position and a run of Clock steps -/

/-- How many ticks of the frame have passed: 0 at scanline -1, dot 0. -/
def rasterPosition (p : Ppu) : Int := (p.scanline + 1) * 341 + p.dot

/-- The raster counters in their ranges (R41). -/
def RasterInRange (p : Ppu) : Prop := p.dot ≤ 340 ∧ -1 ≤ p.scanline ∧ p.scanline ≤ 260

/-- A sequence of Clock steps with the host's inputs, and the number of frame-complete events. -/
def runClocks : List HostInput → State → Option (State × Nat)
  | [], s => some (s, 0)
  | inp :: rest, s =>
    match clock inp s with
    | .next (t, f) => (runClocks rest t).map fun r => (r.1, f + r.2)
    | _ => none

/-- Two PPUs with the registers no rule reads taken away (R34, R37), and two states with the diagnostic record taken
away as well (R31). -/
def withoutUnread (s : State) : State :=
  { s with ppu := { s.ppu with mask := 0, scrollX := 0, scrollY := 0 }, illegalWrite := false, illegalWrites := [] }

end Sys2Proof.Rules

open Sys2Proof.Rules

/-! ## Reset, power-on and the cartridge -/

/-- R372, R373: what the spec fixes of the state after reset holds of `State.reset`.
The spec's own decisions it rests on: D11, D30, D32. The cartridge of
`State.reset` and its memories' contents are the model's choice, assumptions 1 and 2, and are not stated. -/
def Obligations.ResetValues : Prop :=
  let s := State.reset
  s.a = 0x00 ∧ s.x = 0x00 ∧ s.y = 0x00 ∧ s.sp = 0xFD ∧ s.p = 0x20 ∧ s.pc = s.read16 0xFFFC ∧ s.cyc = 7 ∧
  s.ppu.ctrl = 0 ∧ s.ppu.mask = 0 ∧ s.ppu.status = 0 ∧ s.ppu.oamAddr = 0 ∧ s.ppu.scrollX = 0 ∧ s.ppu.scrollY = 0 ∧
  s.ppu.scrollW = false ∧ s.ppu.vramAddr = 0 ∧ s.ppu.addrW = false ∧ s.ppu.readBuf = 0 ∧
  s.ppu.nmiPending = false ∧ s.ppu.dot = 0 ∧ s.ppu.scanline = -1 ∧
  s.pad.strobe = false ∧ s.pad.index = 0 ∧ s.pad.buttons = 0x00 ∧
  s.illegalWrite = false ∧ s.illegalWrites = [] ∧ s.refused = none ∧ s.dmaThisStep = false

/-- R370 to R373: Reset in any state gives every register its value, and every memory, the buttons and the two sticky
records persist; power-on leaves every register as Reset does, the memories as MEM_INIT says, no button pressed, no
illegal write and no refusal.
The spec's own decisions it rests on: D2, D11, D30, D31, D32, D42, D50. -/
def Obligations.ResetAndPowerOnSetEveryRegister : Prop :=
  (∀ s : State,
    s.busReset =
      { s with
        a := 0, x := 0, y := 0, sp := 0xFD, p := 0x20, cyc := 7,
        pc := joinBytes (s.cpuRead 0xFFFD) (s.cpuRead 0xFFFC),
        ppu := { ctrl := 0, mask := 0, status := 0, oamAddr := 0, scrollX := 0, scrollY := 0, scrollW := false,
                 vramAddr := 0, addrW := false, readBuf := 0, nmiPending := false, dot := 0, scanline := -1,
                 vram := s.ppu.vram, palette := s.ppu.palette, oam := s.ppu.oam },
        pad := { buttons := s.pad.buttons, strobe := false, index := 0 }, dmaThisStep := false }) ∧
  ∀ (cart : Cartridge) (params : Config.Params) (init : MemInit),
    let s := powerOn cart params init
    s.busReset = s ∧ s.ram = init.ram ∧ s.ppu.vram = init.vram ∧ s.ppu.palette = init.palette ∧
    s.ppu.oam = init.oam ∧ s.cart = cart ∧ s.params = params ∧ s.pad.buttons = 0x00 ∧
    s.illegalWrite = false ∧ s.illegalWrites = [] ∧ s.refused = none

/-- R100, R101, R103: `Create` checks in the rule's order, and a cartridge it builds has the header's fields and the
image's bytes, the trainer skipped.
The spec's own decisions it rests on: D21, D22, D25. -/
def Obligations.CreateChecksAndBuildsCartridge : Prop :=
  ∀ (bytes : List Byte) (chrRam prgRam : Memory),
    let f6 := bytes.getD 6 0
    let f7 := bytes.getD 7 0
    let prgBanks := (bytes.getD 4 0).toNat
    let chrBanks := (bytes.getD 5 0).toNat
    let mapper := (f7 &&& 0xF0#8) ||| (f6 >>> 4)
    let off := 16 + if f6.getLsbD 2 then 512 else 0
    let made := create bytes chrRam prgRam
    (bytes.length < 16 → made = .error .truncated) ∧
    (16 ≤ bytes.length →
      (bytes.take 4 ≠ [0x4E, 0x45, 0x53, 0x1A] → made = .error .badMagic) ∧
      (bytes.take 4 = [0x4E, 0x45, 0x53, 0x1A] →
        (mapper ≠ 0 → made = .error .unsupportedMapper) ∧
        (mapper = 0 →
          (prgBanks ≠ 1 ∧ prgBanks ≠ 2 → made = .error .unsupportedPrgSize) ∧
          (prgBanks = 1 ∨ prgBanks = 2 →
            (bytes.length < off + 16384 * prgBanks + 8192 * chrBanks → made = .error .truncated) ∧
            (off + 16384 * prgBanks + 8192 * chrBanks ≤ bytes.length →
              ∃ c : Cartridge, made = .ok c ∧
                c.header = { prgBanks := prgBanks, chrBanks := chrBanks, mapperId := 0,
                             mirroring := if f6.getLsbD 0 then .vertical else .horizontal,
                             trainer := f6.getLsbD 2, battery := f6.getLsbD 1 } ∧
                (∀ k < 16384 * prgBanks, c.prg.read k = bytes.getD (off + k) 0) ∧
                (0 < chrBanks → ∀ k < 8192 * chrBanks,
                  c.chr.read k = bytes.getD (off + 16384 * prgBanks + k) 0) ∧
                (chrBanks = 0 → c.chr = chrRam) ∧ c.prgRam = prgRam)))))

/-! ## Encoding -/

/-- Every well-formed instruction's encoding decodes to the instruction, whatever bytes follow it. -/
def Obligations.DecodeOfEncodeIsTheInstruction : Prop :=
  ∀ (i : Instr) (rest : List Byte), i.wf = true → decode (encode i ++ rest) = .ok (i, rest)

/-- What decodes is the encoding of a well-formed instruction followed by the rest, and any three bytes decode. -/
def Obligations.DecodedBytesAreTheEncoding : Prop :=
  (∀ (bytes : List Byte) (i : Instr) (rest : List Byte),
    decode bytes = .ok (i, rest) → i.wf = true ∧ bytes = encode i ++ rest) ∧
  ∀ (op lo hi : Byte) (rest : List Byte),
    ∃ i rest', decode (op :: lo :: hi :: rest) = .ok (i, rest')

/-- A few words of R124's map, written out. -/
def Obligations.SpecWordsDecode : Prop :=
  decode [0xA9, 0x7F] = .ok (.ldaImm 0x7F, []) ∧
  decode [0xAD, 0x34, 0x12] = .ok (.ldaAbs 0x1234, []) ∧
  decode [0x6C, 0xFF, 0x02] = .ok (.jmpInd 0x02FF, []) ∧
  decode [0x10, 0x80] = .ok (.bpl (-128), []) ∧
  decode [0x0A, 0xEA] = .ok (.aslAcc, [0xEA]) ∧
  decode [0xEB, 0x03] = .ok (.sbcImmEB 0x03, []) ∧
  decode [0xDC, 0xF0, 0x12] = .ok (.nopAbsXDC 0x12F0, []) ∧
  decode [0x02] = .ok (.jam02, [])

/-- R120, R122, R123, R127: the opcode byte alone fixes the entry, its mode and its length; the operand bytes follow
in the order of R120. -/
def Obligations.OpcodeByteFixesModeAndLength : Prop :=
  (∀ op lo hi : Byte, (decodeOp op lo hi).opcode = op ∧ (decodeOp op lo hi).mode = modeOf op ∧
    instrLength op = 1 + (modeOf op).operandBytes ∧ 1 ≤ instrLength op ∧ instrLength op ≤ 3 ∧
    ((decodeOp op lo hi).operation = .unsupported → instrLength op = 1)) ∧
  (∀ i j : Instr, i.opcode = j.opcode → i.operation = j.operation ∧ i.mode = j.mode) ∧
  (∀ op lo hi : Byte,
    (decodeOp op lo hi).operand =
      match modeOf op with
      | .implied => .implied
      | .accumulator => .accumulator
      | .immediate => .immediate lo
      | .zeroPage => .zeroPage lo
      | .zeroPageX => .zeroPageX lo
      | .zeroPageY => .zeroPageY lo
      | .absolute => .absolute (hi ++ lo)
      | .absoluteX => .absoluteX (hi ++ lo)
      | .absoluteY => .absoluteY (hi ++ lo)
      | .indirect => .indirect (hi ++ lo)
      | .indexedIndirectX => .indexedIndirectX lo
      | .indirectIndexedY => .indirectIndexedY lo
      | .relative => .relative lo.toInt) ∧
  [Mode.implied, .accumulator, .immediate, .zeroPage, .zeroPageX, .zeroPageY, .indexedIndirectX, .indirectIndexedY,
    .relative, .absolute, .absoluteX, .absoluteY, .indirect].map Mode.operandBytes =
    [0, 0, 1, 1, 1, 1, 1, 1, 1, 2, 2, 2, 2]

/-! ## The step -/

/-- When the bytes at PC are the encoding of a well-formed instruction, a step is the instruction's meaning after the
fetch, inside what the Clock step adds around it. The queue of host inputs is the model's choice, assumption 4. -/
def Obligations.StepRunsDecodedInstruction : Prop :=
  ∀ (s : State) (i : Instr), s.refused = none → i.wf = true →
    let s0 := s.takeInput.setDmaThisStep false
    let s1 := State.afterFetch (encode i).length s0
    State.fetchBytes (encode i).length s0 = encode i → s1.refused = none →
      s1.pc = s.pc + BitVec.ofNat 16 (encode i).length ∧
      step s =
        match exec i s1 with
        | .next t => .next (finishClock s.nextInput (t.cyc - s.cyc) t).1
        | .fault f => .fault f
        | .refused r => .refused r

/-- R84, R122, R300: a fetch is one bus read at PC, then PC + 1, for each byte in turn; from memory it has no other
effect. -/
def Obligations.FetchReadsSuccessiveBytes : Prop :=
  (∀ s : State, s.fetchByte = s.cpuRead s.pc ∧ s.afterFetchByte = { s.afterRead s.pc with pc := s.pc + 1 }) ∧
  ∀ s : State, s.holdsByte s.pc = true → s.holdsByte (s.pc + 1) = true → s.holdsByte (s.pc + 2) = true →
    State.fetchBytes 3 s = [s.cpuRead s.pc, s.cpuRead (s.pc + 1), s.cpuRead (s.pc + 2)] ∧
    State.afterFetch 1 s = { s with pc := s.pc + 1 } ∧ State.afterFetch 2 s = { s with pc := s.pc + 2 } ∧
    State.afterFetch 3 s = { s with pc := s.pc + 3 }

/-- R320 with R81 and R314: the instruction, then 3 ticks for each cycle of it and of its DMA stall, then at most one
interrupt entry, NMI before IRQ, with 8 cycles and 24 ticks.
The spec's own decisions it rests on: D1, D7, D9, D10, D29, D43. -/
def Obligations.ClockTicksThenEntersOneInterrupt : Prop :=
  ∀ (inp : HostInput) (s t : State), s.refused = none →
    executeSingle (s.setDmaThisStep false) = .next t →
      let c := t.cyc - s.cyc
      let stall := if t.dmaThisStep then (if t.cyc % 2 = 0 then 513 else 514) else 0
      let n := 3 * (c + stall)
      let u : State := { t with cyc := t.cyc + stall, ppu := t.ppu.ticks inp.draws n }
      let f := t.ppu.frames inp.draws n
      let entered (v : State) : State × Nat :=
        ({ v with cyc := v.cyc + 8, ppu := v.ppu.ticks inp.draws 24 }, f + v.ppu.frames inp.draws 24)
      s.cyc ≤ t.cyc ∧
      clock inp s = .next
        (if u.ppu.nmiPending then entered (State.nmi { u with ppu := { u.ppu with nmiPending := false } })
         else if inp.irqLine && !u.p.getLsbD 2 then entered u.irq
         else (u, f))

/-- R302: a refused step has no next state; the host sees the state before it with the reason, and then the machine has
no further step, also after Reset.
The spec's own decisions it rests on: D2. -/
def Obligations.RefusalIsSticky : Prop :=
  (∀ (inp : HostInput) (s : State) (r : Refusal), s.refused = none → clock inp s = .refused r →
    hostClock inp s = ({ s with refused := some r }, 0)) ∧
  (∀ (inp : HostInput) (s : State) (r : Refusal), s.refused = some r →
    clock inp s = .refused r ∧ step s = .refused r ∧ hostClock inp s = (s, 0) ∧ s.busReset.refused = some r)

/-- R303, R316: an instruction has a next state, or it is one of the unsupported bytes and refuses under its name, or
it made a nametable access under FourScreen mirroring and refuses under that name.
The spec's own decisions it rests on: D2, D21, D30. -/
def Obligations.EveryInstructionSucceedsOrRefuses : Prop :=
  ∀ (i : Instr) (s : State), s.refused = none →
    (i.operation = .unsupported ∧ exec i s = .refused (.unsupportedOpcode i.opcode)) ∨
    (i.operation ≠ .unsupported ∧ ∃ t, exec i s = .next t ∧ t.refused = none) ∨
    (i.operation ≠ .unsupported ∧ s.mirroring = .fourScreen ∧ exec i s = .refused .fourScreenUnsupported)

/-- Under the mirroring the loader produces, a step stops on an unsupported opcode byte and on nothing else, and the
machine is then ready for the next one.
The spec's own decisions it rests on: D2, D21. -/
def Obligations.ReadyMachineStepsUnlessOpcodeUnsupported : Prop :=
  ∀ s : State, s.Ready →
    let op := (s.takeInput.setDmaThisStep false).fetchByte
    (op ∈ unsupportedBytes → step s = .refused (.unsupportedOpcode op)) ∧
    (op ∉ unsupportedBytes → ∃ t, step s = .next t ∧ t.Ready)

/-! ## Addressing modes -/

/-- R141 to R149, R153: the modes that make no pointer read. A zero-page sum stays in page 0, an absolute operand's low
byte comes first, and the other sums are modulo 65536.
The spec's own decisions it rests on: D45 (the two indexed sums wrap). -/
def Obligations.PlainModesGiveEffectiveAddress : Prop :=
  ∀ (op : Byte) (s : State),
    let s1 := s.afterFetchByte
    let b := s.fetchByte
    let s2 := s1.afterFetchByte
    let base := fetchedWord s
    (modeOf op = .implied → runMode op s = { ea := none, crossed := false, st := s }) ∧
    (modeOf op = .accumulator → runMode op s = { ea := none, crossed := false, st := s }) ∧
    (modeOf op = .immediate → runMode op s = { ea := some s.pc, crossed := false, st := s1 } ∧
      loadOperand (decodeOp op b 0).operand s1 = { ea := some s.pc, crossed := false, value := b, st := s1 }) ∧
    (modeOf op = .zeroPage → runMode op s = { ea := some (b.setWidth 16), crossed := false, st := s1 }) ∧
    (modeOf op = .zeroPageX →
      runMode op s = { ea := some ((b + s.x).setWidth 16), crossed := false, st := s1 }) ∧
    (modeOf op = .zeroPageY →
      runMode op s = { ea := some ((b + s.y).setWidth 16), crossed := false, st := s1 }) ∧
    (modeOf op = .relative →
      let ea := s1.pc + b.signExtend 16
      runMode op s = { ea := some ea, crossed := pagesDiffer s1.pc ea, st := s1 }) ∧
    (modeOf op = .absolute → runMode op s = { ea := some base, crossed := false, st := s2 }) ∧
    (modeOf op = .absoluteX →
      let ea := base + s.x.setWidth 16
      runMode op s = { ea := some ea, crossed := pagesDiffer base ea, st := s2 }) ∧
    (modeOf op = .absoluteY →
      let ea := base + s.y.setWidth 16
      runMode op s = { ea := some ea, crossed := pagesDiffer base ea, st := s2 })

/-- R150, R151, R152: the pointer modes. Indirect's high byte stays in the pointer's page, and both zero-page pointers
stay in page 0, where their reads are of RAM.
The spec's own decisions it rests on: D45 (the indexed sum wraps). -/
def Obligations.PointerModesGiveEffectiveAddress : Prop :=
  ∀ (op : Byte) (s : State),
    let s1 := s.afterFetchByte
    let s2 := s1.afterFetchByte
    let b := s.fetchByte
    (modeOf op = .indirect →
      let ptr := fetchedWord s
      let hi := (ptr &&& 0xFF00#16) ||| ((ptr + 1) &&& 0x00FF#16)
      runMode op s = { ea := some (joinBytes ((s2.afterRead ptr).cpuRead hi) (s2.cpuRead ptr)), crossed := false,
                       st := (s2.afterRead ptr).afterRead hi }) ∧
    (modeOf op = .indexedIndirectX →
      let p := b + s.x
      runMode op s = { ea := some (joinBytes (s1.ram.read (p + 1).toNat) (s1.ram.read p.toNat)), crossed := false,
                       st := s1 }) ∧
    (modeOf op = .indirectIndexedY →
      let base := joinBytes (s1.ram.read (b + 1).toNat) (s1.ram.read b.toNat)
      let ea := base + s.y.setWidth 16
      runMode op s = { ea := some ea, crossed := pagesDiffer base ea, st := s1 })

/-- R10, R156: reading the operand is the mode, then one bus read at `ea`; Immediate's byte is the fetched one, and with
no `ea` the operand is A.
The spec's own decisions it rests on: D1. -/
def Obligations.OperandIsReadOnce : Prop :=
  ∀ (o : Operand) (s : State),
    let r := resolve o s
    let m := loadOperand o s
    (∀ v, o = .immediate v → m = { ea := r.ea, crossed := false, value := v, st := s }) ∧
    (r.ea = none → m = { ea := none, crossed := false, value := s.a, st := s }) ∧
    ((∀ v, o ≠ .immediate v) → ∀ ea, r.ea = some ea →
      m = { ea := some ea, crossed := r.crossed, value := r.st.cpuRead ea, st := r.st.afterRead ea })

/-- R154: a push stores at 0x0100 | SP and then decrements SP, a pull increments SP and then reads, both modulo 256 and
both in RAM. -/
def Obligations.StackPushAndPull : Prop :=
  ∀ (s : State) (v : Byte),
    (∀ sp : Byte, stackAddr sp = 0x0100#16 ||| sp.setWidth 16) ∧
    s.push v = { s.cpuWrite (stackAddr s.sp) v with sp := s.sp - 1 } ∧
    s.push v = { s with ram := s.ram.write (stackIndex s.sp) v, sp := s.sp - 1 } ∧
    s.pull = s.cpuRead (stackAddr (s.sp + 1)) ∧ s.pull = s.ram.read (stackIndex (s.sp + 1)) ∧
    s.afterPull = { s with sp := s.sp + 1 } ∧
    (s.push v).pull = v ∧ (s.push v).afterPull.sp = s.sp

/-- R155, R301, R391: an instruction that is no branch adds its base cycles of R391, and one more exactly when its mode
crossed a page and R155 says it cares. -/
def Obligations.CyclesAreBasePlusPenalty : Prop :=
  ∀ (i : Instr) (s t : State), exec i s = .next t →
    (∀ off, i.operand ≠ .relative off) →
      t.cyc = s.cyc + i.operation.baseCycles i.mode +
        if (resolve i.operand s).crossed = true ∧ i.operation.cares = true ∧
            (i.mode = .absoluteX ∨ i.mode = .absoluteY ∨ i.mode = .indirectIndexedY) then 1 else 0

/-! ## Transfers, loads and stores -/

/-- R160, R161, R162: a load sets its register to M and N and Z from M, in every mode of its encoding. -/
def Obligations.LoadsSetRegisterAndNZ : Prop :=
  HasEncodings .lda [(.immediate, 0xA9), (.zeroPage, 0xA5), (.zeroPageX, 0xB5), (.absolute, 0xAD),
      (.absoluteX, 0xBD), (.absoluteY, 0xB9), (.indexedIndirectX, 0xA1), (.indirectIndexedY, 0xB1)] ∧
  HasEncodings .ldx [(.immediate, 0xA2), (.zeroPage, 0xA6), (.zeroPageY, 0xB6), (.absolute, 0xAE), (.absoluteY, 0xBE)] ∧
  HasEncodings .ldy [(.immediate, 0xA0), (.zeroPage, 0xA4), (.zeroPageX, 0xB4), (.absolute, 0xAC), (.absoluteX, 0xBC)] ∧
  ∀ (i : Instr) (s : State), s.Ready →
    let m := loadOperand i.operand s
    let p := nzBits s.p m.value
    let n := s.cyc + i.cycles m.crossed
    (i.operation = .lda → exec i s = .next { m.st with a := m.value, p := p, cyc := n }) ∧
    (i.operation = .ldx → exec i s = .next { m.st with x := m.value, p := p, cyc := n }) ∧
    (i.operation = .ldy → exec i s = .next { m.st with y := m.value, p := p, cyc := n })

/-- R163, R164, R165: a store makes one bus write of its register at `ea`, does not read `ea` and writes no flag. -/
def Obligations.StoresWriteRegisterAtEffectiveAddress : Prop :=
  HasEncodings .sta [(.zeroPage, 0x85), (.zeroPageX, 0x95), (.absolute, 0x8D),
      (.absoluteX, 0x9D), (.absoluteY, 0x99), (.indexedIndirectX, 0x81), (.indirectIndexedY, 0x91)] ∧
  HasEncodings .stx [(.zeroPage, 0x86), (.zeroPageY, 0x96), (.absolute, 0x8E)] ∧
  HasEncodings .sty [(.zeroPage, 0x84), (.zeroPageX, 0x94), (.absolute, 0x8C)] ∧
  ∀ (i : Instr) (s : State), s.Ready →
    let r := resolve i.operand s
    let n := s.cyc + i.cycles false
    (i.operation = .sta → ∃ ea, r.ea = some ea ∧ exec i s = .next { r.st.cpuWrite ea s.a with cyc := n }) ∧
    (i.operation = .stx → ∃ ea, r.ea = some ea ∧ exec i s = .next { r.st.cpuWrite ea s.x with cyc := n }) ∧
    (i.operation = .sty → ∃ ea, r.ea = some ea ∧ exec i s = .next { r.st.cpuWrite ea s.y with cyc := n })

/-- R166 to R171: the six transfers; TXS alone writes no flag. -/
def Obligations.TransfersCopyRegisters : Prop :=
  HasEncodings .tax [(.implied, 0xAA)] ∧
  HasEncodings .tay [(.implied, 0xA8)] ∧
  HasEncodings .tsx [(.implied, 0xBA)] ∧
  HasEncodings .txa [(.implied, 0x8A)] ∧
  HasEncodings .txs [(.implied, 0x9A)] ∧
  HasEncodings .tya [(.implied, 0x98)] ∧
  ∀ s : State, s.refused = none →
    let n := s.cyc + 2
    exec .tax s = .next { s with x := s.a, p := nzBits s.p s.a, cyc := n } ∧
    exec .tay s = .next { s with y := s.a, p := nzBits s.p s.a, cyc := n } ∧
    exec .tsx s = .next { s with x := s.sp, p := nzBits s.p s.sp, cyc := n } ∧
    exec .txa s = .next { s with a := s.x, p := nzBits s.p s.x, cyc := n } ∧
    exec .txs s = .next { s with sp := s.x, cyc := n } ∧
    exec .tya s = .next { s with a := s.y, p := nzBits s.p s.y, cyc := n }

/-! ## Stack instructions -/

/-- R180 to R183: PHA, PHP, PLA and PLP.
The spec's own decisions it rests on: D5 (PLP). -/
def Obligations.StackInstructionsPushAndPull : Prop :=
  HasEncodings .pha [(.implied, 0x48)] ∧
  HasEncodings .php [(.implied, 0x08)] ∧
  HasEncodings .pla [(.implied, 0x68)] ∧
  HasEncodings .plp [(.implied, 0x28)] ∧
  ∀ s : State, s.refused = none →
    let v := s.ram.read (stackIndex (s.sp + 1))
    exec .pha s = .next { s with ram := s.ram.write (stackIndex s.sp) s.a, sp := s.sp - 1, cyc := s.cyc + 3 } ∧
    exec .php s =
      .next { s with ram := s.ram.write (stackIndex s.sp) (s.p ||| 0x30#8), sp := s.sp - 1, cyc := s.cyc + 3 } ∧
    exec .pla s = .next { s with a := v, p := nzBits s.p v, sp := s.sp + 1, cyc := s.cyc + 4 } ∧
    exec .plp s = .next { s with p := (v &&& 0xCF#8) ||| 0x20#8, sp := s.sp + 1, cyc := s.cyc + 4 }

/-! ## Increment and decrement -/

/-- R190 to R195: INC and DEC on memory are one read, then one write of v + 1 or v - 1 modulo 256; INX, INY, DEX and DEY
count in a register; N and Z come from the result. -/
def Obligations.IncrementsAndDecrementsWrap : Prop :=
  HasEncodings .inc [(.zeroPage, 0xE6), (.zeroPageX, 0xF6), (.absolute, 0xEE), (.absoluteX, 0xFE)] ∧
  HasEncodings .dec [(.zeroPage, 0xC6), (.zeroPageX, 0xD6), (.absolute, 0xCE), (.absoluteX, 0xDE)] ∧
  HasEncodings .inx [(.implied, 0xE8)] ∧
  HasEncodings .iny [(.implied, 0xC8)] ∧
  HasEncodings .dex [(.implied, 0xCA)] ∧
  HasEncodings .dey [(.implied, 0x88)] ∧
  (∀ (i : Instr) (s : State), s.Ready →
    (i.operation = .inc → ModifiesTo i s (fun v => v + 1) fun t _ r => { t with p := nzBits t.p r }) ∧
    (i.operation = .dec → ModifiesTo i s (fun v => v - 1) fun t _ r => { t with p := nzBits t.p r })) ∧
  ∀ s : State, s.refused = none →
    let n := s.cyc + 2
    exec .inx s = .next { s with x := s.x + 1, p := nzBits s.p (s.x + 1), cyc := n } ∧
    exec .iny s = .next { s with y := s.y + 1, p := nzBits s.p (s.y + 1), cyc := n } ∧
    exec .dex s = .next { s with x := s.x - 1, p := nzBits s.p (s.x - 1), cyc := n } ∧
    exec .dey s = .next { s with y := s.y - 1, p := nzBits s.p (s.y - 1), cyc := n }

/-! ## Arithmetic and logic -/

/-- R200, R201, R281: ADC adds M, SBC adds the complement of M, through the one adder; 0xEB is SBC Immediate.
The spec's own decisions it rests on: D3 (0xEB). -/
def Obligations.AddAndSubtractThroughTheSharedAdder : Prop :=
  HasEncodings .adc [(.immediate, 0x69), (.zeroPage, 0x65), (.zeroPageX, 0x75), (.absolute, 0x6D),
      (.absoluteX, 0x7D), (.absoluteY, 0x79), (.indexedIndirectX, 0x61), (.indirectIndexedY, 0x71)] ∧
  HasEncodings .sbc [(.immediate, 0xE9), (.zeroPage, 0xE5), (.zeroPageX, 0xF5), (.absolute, 0xED),
      (.absoluteX, 0xFD), (.absoluteY, 0xF9), (.indexedIndirectX, 0xE1), (.indirectIndexedY, 0xF1),
      (.immediate, 0xEB)] ∧
  ∀ (i : Instr) (s : State), s.Ready →
    let m := loadOperand i.operand s
    let n := s.cyc + i.cycles m.crossed
    (i.operation = .adc → exec i s = .next { addCoreOf m.st m.value with cyc := n }) ∧
    (i.operation = .sbc → exec i s = .next { addCoreOf m.st (~~~m.value) with cyc := n })

/-- R200, R201, R205: the model's adder in exact numbers, whatever D holds. C of an addition is the carry out, V is
signed overflow, C of a subtraction is the absence of a borrow, each result is the exact one modulo 256, and nothing
but A, C, Z, V and N is written; ADC runs the addition on its operand and SBC the subtraction. -/
def Obligations.AdderFlagsMeanCarryAndOverflow : Prop :=
  (∀ (t : State) (m : Byte),
    let u := t.addCore m
    let d := t.subCore m
    let c := (t.p.getLsbD 0).toNat
    (u = { t with a := u.a, p := u.p } ∧ (∀ b, 2 ≤ b → b ≤ 5 → u.p.getLsbD b = t.p.getLsbD b) ∧
      u.a.toNat = (t.a.toNat + m.toNat + c) % 256 ∧
      (u.p.getLsbD 0 = true ↔ 256 ≤ t.a.toNat + m.toNat + c) ∧
      (u.p.getLsbD 6 = true ↔ t.a.toInt + m.toInt + c < -128 ∨ 127 < t.a.toInt + m.toInt + c) ∧
      (u.p.getLsbD 1 = true ↔ u.a = 0) ∧ u.p.getLsbD 7 = u.a.getLsbD 7) ∧
    (d = { t with a := d.a, p := d.p } ∧ (∀ b, 2 ≤ b → b ≤ 5 → d.p.getLsbD b = t.p.getLsbD b) ∧
      (d.a.toNat : Int) = ((t.a.toNat : Int) - m.toNat - (1 - c)) % 256 ∧
      (d.p.getLsbD 0 = true ↔ m.toNat + (1 - c) ≤ t.a.toNat) ∧
      (d.p.getLsbD 6 = true ↔
        t.a.toInt - m.toInt - (1 - c) < -128 ∨ 127 < t.a.toInt - m.toInt - (1 - c)) ∧
      (d.p.getLsbD 1 = true ↔ d.a = 0) ∧ d.p.getLsbD 7 = d.a.getLsbD 7)) ∧
  ∀ (i : Instr) (s : State), s.Ready →
    let m := loadOperand i.operand s
    let n := s.cyc + i.cycles m.crossed
    (i.operation = .adc → exec i s = .next { m.st.addCore m.value with cyc := n }) ∧
    (i.operation = .sbc → exec i s = .next { m.st.subCore m.value with cyc := n })

/-- R202, R203, R204: AND, EOR and ORA into A, N and Z from the result. -/
def Obligations.LogicIntoAccumulator : Prop :=
  HasEncodings .and [(.immediate, 0x29), (.zeroPage, 0x25), (.zeroPageX, 0x35), (.absolute, 0x2D),
      (.absoluteX, 0x3D), (.absoluteY, 0x39), (.indexedIndirectX, 0x21), (.indirectIndexedY, 0x31)] ∧
  HasEncodings .eor [(.immediate, 0x49), (.zeroPage, 0x45), (.zeroPageX, 0x55), (.absolute, 0x4D),
      (.absoluteX, 0x5D), (.absoluteY, 0x59), (.indexedIndirectX, 0x41), (.indirectIndexedY, 0x51)] ∧
  HasEncodings .ora [(.immediate, 0x09), (.zeroPage, 0x05), (.zeroPageX, 0x15), (.absolute, 0x0D),
      (.absoluteX, 0x1D), (.absoluteY, 0x19), (.indexedIndirectX, 0x01), (.indirectIndexedY, 0x11)] ∧
  ∀ (i : Instr) (s : State), s.Ready →
    let m := loadOperand i.operand s
    let n := s.cyc + i.cycles m.crossed
    let result (r : Byte) : State := { m.st with a := r, p := nzBits s.p r, cyc := n }
    (i.operation = .and → exec i s = .next (result (s.a &&& m.value))) ∧
    (i.operation = .eor → exec i s = .next (result (s.a ^^^ m.value))) ∧
    (i.operation = .ora → exec i s = .next (result (s.a ||| m.value)))

/-! ## Shifts and rotates -/

/-- R215 to R218: one bit, on A or on memory; C takes the bit shifted out, and the rotates bring the old C in. -/
def Obligations.ShiftsMoveOneBitThroughCarry : Prop :=
  HasEncodings .asl
    [(.accumulator, 0x0A), (.zeroPage, 0x06), (.zeroPageX, 0x16), (.absolute, 0x0E), (.absoluteX, 0x1E)] ∧
  HasEncodings .lsr
    [(.accumulator, 0x4A), (.zeroPage, 0x46), (.zeroPageX, 0x56), (.absolute, 0x4E), (.absoluteX, 0x5E)] ∧
  HasEncodings .rol
    [(.accumulator, 0x2A), (.zeroPage, 0x26), (.zeroPageX, 0x36), (.absolute, 0x2E), (.absoluteX, 0x3E)] ∧
  HasEncodings .ror
    [(.accumulator, 0x6A), (.zeroPage, 0x66), (.zeroPageX, 0x76), (.absolute, 0x6E), (.absoluteX, 0x7E)] ∧
  ∀ (i : Instr) (s : State), s.Ready →
    let c := s.p.getLsbD 0
    let after (bit : Nat) (t : State) (v r : Byte) : State := { t with p := nzBits (setBit t.p 0 (v.getLsbD bit)) r }
    (i.operation = .asl → ModifiesTo i s (fun v => v <<< 1) (after 7)) ∧
    (i.operation = .lsr → ModifiesTo i s (fun v => v >>> 1) (after 0)) ∧
    (i.operation = .rol → ModifiesTo i s (fun v => (v <<< 1) ||| (if c then 0x01#8 else 0#8)) (after 7)) ∧
    (i.operation = .ror → ModifiesTo i s (fun v => (v >>> 1) ||| (if c then 0x80#8 else 0#8)) (after 0))

/-! ## Flags and compares -/

/-- R9, R225 to R231: each flag instruction writes its one flag; a one-flag write and setNZ leave every other bit of P. -/
def Obligations.FlagInstructionsWriteOneFlag : Prop :=
  HasEncodings .clc [(.implied, 0x18)] ∧
  HasEncodings .cld [(.implied, 0xD8)] ∧
  HasEncodings .cli [(.implied, 0x58)] ∧
  HasEncodings .clv [(.implied, 0xB8)] ∧
  HasEncodings .sec [(.implied, 0x38)] ∧
  HasEncodings .sed [(.implied, 0xF8)] ∧
  HasEncodings .sei [(.implied, 0x78)] ∧
  (∀ s : State, s.refused = none →
    let writes (bit : Nat) (b : Bool) : Result := .next { s with p := setBit s.p bit b, cyc := s.cyc + 2 }
    exec .clc s = writes 0 false ∧ exec .cld s = writes 3 false ∧ exec .cli s = writes 2 false ∧
    exec .clv s = writes 6 false ∧ exec .sec s = writes 0 true ∧ exec .sed s = writes 3 true ∧
    exec .sei s = writes 2 true) ∧
  (∀ (p : Byte) (bit : Nat) (b : Bool), bit < 8 → ∀ k < 8,
    (setBit p bit b).getLsbD k = if k = bit then b else p.getLsbD k) ∧
  ∀ (p v : Byte), ∀ k < 8,
    (nzBits p v).getLsbD k = if k = 1 then decide (v = 0) else if k = 7 then v.getLsbD 7 else p.getLsbD k

/-- R232, R233, R234: CMP, CPX and CPY set C, Z and N from the unsigned subtraction and write nothing else. -/
def Obligations.ComparesSetCarryZeroNegative : Prop :=
  HasEncodings .cmp [(.immediate, 0xC9), (.zeroPage, 0xC5), (.zeroPageX, 0xD5), (.absolute, 0xCD),
      (.absoluteX, 0xDD), (.absoluteY, 0xD9), (.indexedIndirectX, 0xC1), (.indirectIndexedY, 0xD1)] ∧
  HasEncodings .cpx [(.immediate, 0xE0), (.zeroPage, 0xE4), (.absolute, 0xEC)] ∧
  HasEncodings .cpy [(.immediate, 0xC0), (.zeroPage, 0xC4), (.absolute, 0xCC)] ∧
  ∀ (i : Instr) (s : State), s.Ready →
    let m := loadOperand i.operand s
    let n := s.cyc + i.cycles m.crossed
    (i.operation = .cmp → exec i s = .next { m.st with p := compareOf s.p s.a m.value, cyc := n }) ∧
    (i.operation = .cpx → exec i s = .next { m.st with p := compareOf s.p s.x m.value, cyc := n }) ∧
    (i.operation = .cpy → exec i s = .next { m.st with p := compareOf s.p s.y m.value, cyc := n })

/-! ## Control transfer -/

/-- R240 to R248: the eight branches, for every offset. -/
def Obligations.BranchesJumpOnTheirFlag : Prop :=
  HasEncodings .bcc [(.relative, 0x90)] ∧
  HasEncodings .bcs [(.relative, 0xB0)] ∧
  HasEncodings .beq [(.relative, 0xF0)] ∧
  HasEncodings .bmi [(.relative, 0x30)] ∧
  HasEncodings .bne [(.relative, 0xD0)] ∧
  HasEncodings .bpl [(.relative, 0x10)] ∧
  HasEncodings .bvc [(.relative, 0x50)] ∧
  HasEncodings .bvs [(.relative, 0x70)] ∧
  ∀ (off : Int) (s : State), s.refused = none →
    let c := s.p.getLsbD 0
    let z := s.p.getLsbD 1
    let v := s.p.getLsbD 6
    let n := s.p.getLsbD 7
    exec (.bcc off) s = branchOutcome (!c) off s ∧ exec (.bcs off) s = branchOutcome c off s ∧
    exec (.beq off) s = branchOutcome z off s ∧ exec (.bmi off) s = branchOutcome n off s ∧
    exec (.bne off) s = branchOutcome (!z) off s ∧ exec (.bpl off) s = branchOutcome (!n) off s ∧
    exec (.bvc off) s = branchOutcome (!v) off s ∧ exec (.bvs off) s = branchOutcome v off s

/-- R249, R250, R251: JMP in both modes, JSR and RTS. -/
def Obligations.JumpsCallsAndReturns : Prop :=
  HasEncodings .jmp [(.absolute, 0x4C), (.indirect, 0x6C)] ∧ HasEncodings .jsr [(.absolute, 0x20)] ∧
  HasEncodings .rts [(.implied, 0x60)] ∧
  (∀ (addr : Addr) (s : State), s.refused = none →
    let ret := s.pc - 1
    exec (.jmpAbs addr) s = .next { s with pc := addr, cyc := s.cyc + 3 } ∧
    exec (.jsr addr) s =
      .next { s with ram := (s.ram.write (stackIndex s.sp) (hiByte ret)).write (stackIndex (s.sp - 1)) (loByte ret),
                     sp := s.sp - 2, pc := addr, cyc := s.cyc + 6 } ∧
    exec .rts s =
      .next { s with pc := joinBytes (s.ram.read (stackIndex (s.sp + 2))) (s.ram.read (stackIndex (s.sp + 1))) + 1,
                     sp := s.sp + 2, cyc := s.cyc + 6 }) ∧
  ∀ (ptr : Addr) (s : State), s.Ready →
    let hi := (ptr &&& 0xFF00#16) ||| ((ptr + 1) &&& 0x00FF#16)
    exec (.jmpInd ptr) s =
      .next { (s.afterRead ptr).afterRead hi with
              pc := joinBytes ((s.afterRead ptr).cpuRead hi) (s.cpuRead ptr), cyc := s.cyc + 5 }

/-- R252, R253: BRK enters through 0xFFFE with PC + 1 and P | 0x30 pushed; RTI pulls P, then PC.
The spec's own decisions it rests on: D5, D6, D44. -/
def Obligations.BreakEntersAndRtiReturns : Prop :=
  HasEncodings .brk [(.implied, 0x00)] ∧ HasEncodings .rti [(.implied, 0x40)] ∧
  ∀ s : State, s.refused = none →
    exec .brk s = .next { entryOf s (s.pc + 1) (s.p ||| 0x30#8) 0xFFFE with cyc := s.cyc + 7 } ∧
    exec .rti s =
      .next { s with p := (s.ram.read (stackIndex (s.sp + 1)) &&& 0xCF#8) ||| 0x20#8,
                     pc := joinBytes (s.ram.read (stackIndex (s.sp + 3))) (s.ram.read (stackIndex (s.sp + 2))),
                     sp := s.sp + 3, cyc := s.cyc + 6 }

/-! ## BIT, NOP and the unofficial instructions -/

/-- R260, R261: BIT sets Z from A & M and V and N from M; the official NOP does nothing but its cycles. -/
def Obligations.BitTestsAndOfficialNop : Prop :=
  HasEncodings .bit [(.zeroPage, 0x24), (.absolute, 0x2C)] ∧ Instr.nop.opcode = 0xEA ∧ Instr.nop.mode = .implied ∧
  (∀ (i : Instr) (s : State), s.Ready → i.operation = .bit →
    let m := loadOperand i.operand s
    exec i s =
      .next { m.st with
              p := setBit (setBit (setBit s.p 1 (s.a &&& m.value == 0#8)) 6 (m.value.getLsbD 6)) 7 (m.value.getLsbD 7),
              cyc := s.cyc + i.cycles m.crossed }) ∧
  ∀ s : State, s.refused = none → exec .nop s = .next { s with cyc := s.cyc + 2 }

/-- R270 to R273: LAX loads A and X; SAX stores A & X and writes no flag; DCP compares A with the decremented byte; ISB
subtracts the incremented byte from A. -/
def Obligations.LaxSaxDcpIsbCombine : Prop :=
  HasEncodings .lax [(.zeroPage, 0xA7), (.zeroPageY, 0xB7), (.absolute, 0xAF), (.absoluteY, 0xBF),
      (.indexedIndirectX, 0xA3), (.indirectIndexedY, 0xB3)] ∧
  HasEncodings .sax [(.zeroPage, 0x87), (.zeroPageY, 0x97), (.absolute, 0x8F), (.indexedIndirectX, 0x83)] ∧
  HasEncodings .dcp [(.zeroPage, 0xC7), (.zeroPageX, 0xD7), (.absolute, 0xCF),
      (.absoluteX, 0xDF), (.absoluteY, 0xDB), (.indexedIndirectX, 0xC3), (.indirectIndexedY, 0xD3)] ∧
  HasEncodings .isb [(.zeroPage, 0xE7), (.zeroPageX, 0xF7), (.absolute, 0xEF),
      (.absoluteX, 0xFF), (.absoluteY, 0xFB), (.indexedIndirectX, 0xE3), (.indirectIndexedY, 0xF3)] ∧
  ∀ (i : Instr) (s : State), s.Ready →
    let m := loadOperand i.operand s
    let r := resolve i.operand s
    (i.operation = .lax →
      exec i s = .next { m.st with a := m.value, x := m.value, p := nzBits s.p m.value,
                                   cyc := s.cyc + i.cycles m.crossed }) ∧
    (i.operation = .sax → ∃ ea, r.ea = some ea ∧
      exec i s = .next { r.st.cpuWrite ea (s.a &&& s.x) with cyc := s.cyc + i.cycles false }) ∧
    (i.operation = .dcp → ModifiesTo i s (fun v => v - 1) fun t _ r => { t with p := compareOf t.p t.a r }) ∧
    (i.operation = .isb → ModifiesTo i s (fun v => v + 1) fun t _ r => addCoreOf t (~~~r))

/-- R274 to R277: SLO, RLA, SRE and RRA shift memory, then use the shifted byte as the operand of the second operation;
RRA's add takes the carry the rotate left. -/
def Obligations.ShiftAndLogicCombine : Prop :=
  HasEncodings .slo [(.zeroPage, 0x07), (.zeroPageX, 0x17), (.absolute, 0x0F),
      (.absoluteX, 0x1F), (.absoluteY, 0x1B), (.indexedIndirectX, 0x03), (.indirectIndexedY, 0x13)] ∧
  HasEncodings .rla [(.zeroPage, 0x27), (.zeroPageX, 0x37), (.absolute, 0x2F),
      (.absoluteX, 0x3F), (.absoluteY, 0x3B), (.indexedIndirectX, 0x23), (.indirectIndexedY, 0x33)] ∧
  HasEncodings .sre [(.zeroPage, 0x47), (.zeroPageX, 0x57), (.absolute, 0x4F),
      (.absoluteX, 0x5F), (.absoluteY, 0x5B), (.indexedIndirectX, 0x43), (.indirectIndexedY, 0x53)] ∧
  HasEncodings .rra [(.zeroPage, 0x67), (.zeroPageX, 0x77), (.absolute, 0x6F),
      (.absoluteX, 0x7F), (.absoluteY, 0x7B), (.indexedIndirectX, 0x63), (.indirectIndexedY, 0x73)] ∧
  ∀ (i : Instr) (s : State), s.Ready →
    let c := s.p.getLsbD 0
    let into (t : State) (carry : Bool) (a : Byte) : State := { t with a := a, p := nzBits (setBit t.p 0 carry) a }
    (i.operation = .slo →
      ModifiesTo i s (fun v => v <<< 1) fun t v r => into t (v.getLsbD 7) (t.a ||| r)) ∧
    (i.operation = .rla →
      ModifiesTo i s (fun v => (v <<< 1) ||| (if c then 0x01#8 else 0#8)) fun t v r =>
        into t (v.getLsbD 7) (t.a &&& r)) ∧
    (i.operation = .sre →
      ModifiesTo i s (fun v => v >>> 1) fun t v r => into t (v.getLsbD 0) (t.a ^^^ r)) ∧
    (i.operation = .rra →
      ModifiesTo i s (fun v => (v >>> 1) ||| (if c then 0x80#8 else 0#8)) fun t v r =>
        addCoreOf { t with p := setBit t.p 0 (v.getLsbD 0) } r)

/-- R278, R279, R280: the 27 unofficial NOPs run for their cycles and write no register, flag or memory; the memory
forms read their operand exactly when the parameter says so.
The memory forms' read rests on the spec's own decision D4 (the parameter, here at both values; assumptions 6 and 10). -/
def Obligations.UnofficialNopsDiscardTheirOperand : Prop :=
  HasEncodings .nop
    [(.implied, 0xEA), (.implied, 0x1A), (.implied, 0x3A), (.implied, 0x5A), (.implied, 0x7A), (.implied, 0xDA),
      (.implied, 0xFA), (.immediate, 0x80), (.immediate, 0x82), (.immediate, 0x89), (.immediate, 0xC2),
      (.immediate, 0xE2), (.zeroPage, 0x04), (.zeroPage, 0x44), (.zeroPage, 0x64), (.zeroPageX, 0x14),
      (.zeroPageX, 0x34), (.zeroPageX, 0x54), (.zeroPageX, 0x74), (.zeroPageX, 0xD4), (.zeroPageX, 0xF4),
      (.absolute, 0x0C), (.absoluteX, 0x1C), (.absoluteX, 0x3C), (.absoluteX, 0x5C), (.absoluteX, 0x7C),
      (.absoluteX, 0xDC), (.absoluteX, 0xFC)] ∧
  ∀ (i : Instr) (s : State), s.Ready → i.operation = .nop →
    let r := resolve i.operand s
    let n := s.cyc + i.cycles r.crossed
    (i.mode = .implied ∨ i.mode = .immediate → exec i s = .next { s with cyc := n }) ∧
    (i.mode ≠ .implied → i.mode ≠ .immediate → ∃ ea, r.ea = some ea ∧
      exec i s = .next { (if s.params.nopReadsOperand then s.afterRead ea else s) with cyc := n })

/-- R125, R285: the 25 unsupported bytes, and no others, refuse under their own byte, whatever the state.
The spec's own decisions it rests on: D2. -/
def Obligations.UnsupportedBytesRefuse : Prop :=
  (∀ op lo hi : Byte, (decodeOp op lo hi).operation = .unsupported ↔ op ∈ unsupportedBytes) ∧
  (∀ (i : Instr) (s : State), i.opcode ∈ unsupportedBytes → exec i s = .refused (.unsupportedOpcode i.opcode)) ∧
  ∀ (inp : HostInput) (s : State), s.Ready → s.fetchByte ∈ unsupportedBytes →
    clock inp s = .refused (.unsupportedOpcode s.fetchByte) ∧
    hostClock inp s = ({ s with refused := some (.unsupportedOpcode s.fetchByte) }, 0)

/-! ## The bus -/

/-- R60 to R73: the decoder's read values, read effects and writes, range by range.
The spec's own decisions it rests on: D23, D24, D26, D27, D28, D30. -/
def Obligations.BusDecodesEveryAddress : Prop :=
  ∀ (s : State) (addr : Addr) (v : Byte),
    let n := addr.toNat
    let reg := (addr &&& 0x0007#16).toNat
    let mask := if s.cart.header.prgBanks = 1 then 0x3FFF#16 else 0x7FFF#16
    s.cpuRead addr =
      (if n ≤ 0x1FFF then s.ram.read (addr &&& 0x07FF#16).toNat
       else if n ≤ 0x3FFF then s.ppuRegRead reg
       else if n = 0x4016 then s.pad.read
       else if n ≤ 0x5FFF then 0x00
       else if n ≤ 0x7FFF then (if s.params.prgRamPresent then s.cart.prgRam.read (n - 0x6000) else 0x00)
       else s.cart.prg.read (addr &&& mask).toNat) ∧
    s.afterRead addr =
      (if n ≤ 0x1FFF then s
       else if n ≤ 0x3FFF then s.afterPpuRegRead reg
       else if n = 0x4016 then { s with pad := s.pad.afterRead }
       else s) ∧
    s.cpuWrite addr v =
      (if n ≤ 0x1FFF then { s with ram := s.ram.write (addr &&& 0x07FF#16).toNat v }
       else if n ≤ 0x3FFF then s.ppuRegWrite reg v
       else if n = 0x4014 then s.oamDma v
       else if n = 0x4016 then { s with pad := s.pad.write v }
       else if n ≤ 0x5FFF then s
       else if n ≤ 0x7FFF then
         (if s.params.prgRamPresent then
            { s with cart := { s.cart with prgRam := s.cart.prgRam.write (n - 0x6000) v } }
          else s)
       else { s with illegalWrite := true, illegalWrites := s.illegalWrites ++ [addr] })

/-- A memory reads back what was written and only there, keeps its canonical form and its size, and two memories in
that form that read alike are equal. The sparse form and what an unlisted index reads as are the model's choice,
assumption 1. -/
def Obligations.MemoryReadsWhatWasWritten : Prop :=
  (∀ (m : Memory) (i j : Nat) (v : Byte), (m.write i v).read j = if j = i then v else m.read j) ∧
  (∀ (m : Memory) (i size : Nat) (v : Byte), i < size → m.Canonical size → (m.write i v).Canonical size) ∧
  ∀ m m' : Memory, m.wf = true → m'.wf = true → (∀ i, m.read i = m'.read i) → m = m'

/-- R61, R84: RAM is mirrored every 0x0800, and a store is seen by every later read and fetch. -/
def Obligations.RamIsMirroredAndFetchSeesStores : Prop :=
  ∀ (s : State) (a b : Addr) (v : Byte), a.toNat ≤ 0x1FFF → b.toNat ≤ 0x1FFF →
    (s.cpuWrite a v).cpuRead b = (if a.toNat % 0x0800 = b.toNat % 0x0800 then v else s.cpuRead b) ∧
    ((s.cpuWrite a v).setPc b).fetchByte =
      (if a.toNat % 0x0800 = b.toNat % 0x0800 then v else s.cpuRead b)

/-- R78: the addresses a read of which can change the state are 0x2002, 0x2007 (with their mirrors) and 0x4016. The
addresses a write of which changes nothing, in any state with the given parameters, are those R78 names and, by R350
and D15, 0x2002 with its mirrors; a write anywhere else has an effect in some state.
The spec's own decisions it rests on: D1, D15, D23, D24, D26, D27. -/
def Obligations.OnlyNamedLocationsHaveReadEffects : Prop :=
  (∀ addr : Addr, (∃ s : State, s.afterRead addr ≠ s) ↔
    (0x2000 ≤ addr.toNat ∧ addr.toNat ≤ 0x3FFF ∧ (addr.toNat % 8 = 2 ∨ addr.toNat % 8 = 7)) ∨ addr.toNat = 0x4016) ∧
  ∀ (params : Config.Params) (addr : Addr),
    (∀ (s : State) (v : Byte), s.params = params → s.cpuWrite addr v = s) ↔
      (0x2000 ≤ addr.toNat ∧ addr.toNat ≤ 0x3FFF ∧ addr.toNat % 8 = 2) ∨
      (0x4000 ≤ addr.toNat ∧ addr.toNat ≤ 0x5FFF ∧ addr.toNat ≠ 0x4014 ∧ addr.toNat ≠ 0x4016) ∨
      (params.prgRamPresent = false ∧ 0x6000 ≤ addr.toNat ∧ addr.toNat ≤ 0x7FFF)

/-- R80: a write of a page to 0x4014 copies 256 bytes into OAM from the OAM address on, in order, through the decoder
with its effects, and leaves the OAM address; from a page of memory nothing else changes. -/
def Obligations.OamDmaCopiesPage : Prop :=
  ∀ (s : State) (page : Byte),
    let t := s.cpuWrite 0x4014 page
    let base := page.setWidth 16 <<< 8
    let copy (u : State) (i : Nat) : State :=
      let addr := base + BitVec.ofNat 16 i
      let w := u.afterRead addr
      { w with ppu := { w.ppu with oam := w.ppu.oam.write ((u.ppu.oamAddr.toNat + i) % 256) (u.cpuRead addr) } }
    t = { (List.range 256).foldl copy s with dmaThisStep := true } ∧
    t.ppu.oamAddr = s.ppu.oamAddr ∧
    (page.toNat < 0x20 ∨ 0x41 ≤ page.toNat →
      t = { s with ppu := { s.ppu with oam := t.ppu.oam }, dmaThisStep := true } ∧
      ∀ i < 256, t.ppu.oam.read ((s.ppu.oamAddr.toNat + i) % 256) = s.cpuRead (base + BitVec.ofNat 16 i))

/-! ## The PPU address space -/

/-- R85 to R89: pattern tables to CHR, nametables through NtIndex, palette through PalIndex; a write to CHR ROM is the
illegal write of R72. The last two clauses are the aliases of R88 and R89: under Vertical mirroring tables 0x800 apart,
under Horizontal the two tables of a pair, and the palette's four mirrored entries.
That the FourScreen refusal is a mark set in the working state is the model's reading (assumption 5, DEDUCED), and that
the illegal-write record holds a PPU address as a 16-bit one is its choice (assumption 11, DESIGN CHOICE).
The spec's own decisions it rests on: D19, D20, D21, D22, D30. -/
def Obligations.PpuAddressSpaceDecodes : Prop :=
  ∀ (s : State) (a : VAddr) (v : Byte),
    let n := a.toNat
    let r := (n - 0x2000) &&& 0x0FFF
    let table := r >>> 10
    let off := r &&& 0x03FF
    let i := n &&& 0x1F
    let pal := if i = 0x10 ∨ i = 0x14 ∨ i = 0x18 ∨ i = 0x1C then i - 0x10 else i
    (n ≤ 0x1FFF →
      s.ppuRead a = s.cart.chr.read n ∧ s.afterPpuRead a = s ∧
      s.ppuWrite a v =
        if s.cart.header.chrBanks = 0 then { s with cart := { s.cart with chr := s.cart.chr.write n v } }
        else { s with illegalWrite := true, illegalWrites := s.illegalWrites ++ [a.setWidth 16] }) ∧
    (0x2000 ≤ n → n ≤ 0x3EFF →
      (s.mirroring = .vertical →
        let k := ((table &&& 1) <<< 10) ||| off
        s.ppuRead a = s.ppu.vram.read k ∧ s.afterPpuRead a = s ∧
        s.ppuWrite a v = { s with ppu := { s.ppu with vram := s.ppu.vram.write k v } }) ∧
      (s.mirroring = .horizontal →
        let k := ((table >>> 1) <<< 10) ||| off
        s.ppuRead a = s.ppu.vram.read k ∧ s.afterPpuRead a = s ∧
        s.ppuWrite a v = { s with ppu := { s.ppu with vram := s.ppu.vram.write k v } }) ∧
      (s.mirroring = .fourScreen → s.refused = none →
        s.afterPpuRead a = { s with refused := some .fourScreenUnsupported } ∧
        s.ppuWrite a v = { s with refused := some .fourScreenUnsupported })) ∧
    (0x3F00 ≤ n →
      s.ppuRead a = s.ppu.palette.read pal ∧ s.afterPpuRead a = s ∧
      s.ppuWrite a v = { s with ppu := { s.ppu with palette := s.ppu.palette.write pal v } }) ∧
    (∀ a b : VAddr, 0x2000 ≤ a.toNat → a.toNat ≤ 0x3EFF → 0x2000 ≤ b.toNat → b.toNat ≤ 0x3EFF →
      (s.mirroring = .vertical → a.toNat % 0x0800 = b.toNat % 0x0800 → (s.ppuWrite a v).ppuRead b = v) ∧
      (s.mirroring = .horizontal →
        a.toNat % 0x0400 = b.toNat % 0x0400 → a.toNat / 0x0800 % 2 = b.toNat / 0x0800 % 2 →
        (s.ppuWrite a v).ppuRead b = v)) ∧
    (∀ a b : VAddr, 0x3F00 ≤ a.toNat → 0x3F00 ≤ b.toNat →
      a.toNat % 32 = b.toNat % 32 ∨ (a.toNat % 4 = 0 ∧ b.toNat % 4 = 0 ∧ a.toNat % 16 = b.toNat % 16) →
      (s.ppuWrite a v).ppuRead b = v)

/-- R88, R302: with FourScreen mirroring a 0x2007 access in the nametable range refuses, here by LDA and STA.
The spec's own decisions it rests on: D21. -/
def Obligations.FourScreenNametableAccessRefuses : Prop :=
  ∀ (s : State) (addr : Addr), s.refused = none → s.mirroring = .fourScreen →
    0x2000 ≤ addr.toNat → addr.toNat ≤ 0x3FFF → addr.toNat % 8 = 7 →
    (0x2000 ≤ s.ppu.vramAddr.toNat ∧ s.ppu.vramAddr.toNat ≤ 0x3EFF →
      exec (.ldaAbs addr) s = .refused .fourScreenUnsupported ∧
      exec (.staAbs addr) s = .refused .fourScreenUnsupported) ∧
    (s.ppu.vramAddr.toNat < 0x2000 ∨ 0x3EFF < s.ppu.vramAddr.toNat →
      (∃ t, exec (.ldaAbs addr) s = .next t) ∧ ∃ t, exec (.staAbs addr) s = .next t)

/-! ## The PPU registers and the controller -/

/-- R350 to R358: the value and the effect of a read, and the effect of a write, of each of the eight registers.
The spec's own decisions it rests on: D13, D14, D15, D16, D17, D18, D19, D35. -/
def Obligations.PpuRegisterContract : Prop :=
  ∀ (s : State) (v : Byte),
    let p := s.ppu
    let a := p.vramAddr
    let inc : VAddr := if p.ctrl.getLsbD 2 then 32 else 1
    let palette := 0x3F00 ≤ a.toNat
    (∀ r, r = 0 ∨ r = 1 ∨ r = 3 ∨ r = 5 ∨ r = 6 → s.ppuRegRead r = 0x00 ∧ s.afterPpuRegRead r = s) ∧
    (s.ppuRegRead 2 = p.status &&& 0xE0#8 ∧
      s.afterPpuRegRead 2 = { s with ppu := { p with status := setBit p.status 7 false, scrollW := false,
                                                     addrW := false } }) ∧
    (s.ppuRegRead 4 = p.oam.read p.oamAddr.toNat ∧ s.afterPpuRegRead 4 = s) ∧
    (palette → s.ppuRegRead 7 = s.ppuRead a ∧ s.afterPpuRegRead 7 = { s with ppu := { p with vramAddr := a + inc } }) ∧
    (¬palette → s.ppuRegRead 7 = p.readBuf ∧ (s.mirroring ≠ .fourScreen →
      s.afterPpuRegRead 7 = { s with ppu := { p with readBuf := s.ppuRead a, vramAddr := a + inc } })) ∧
    s.ppuRegWrite 0 v =
      { s with ppu := { p with ctrl := v, nmiPending :=
          p.nmiPending || (p.ctrl.getLsbD 7 == false && v.getLsbD 7 && p.status.getLsbD 7) } } ∧
    s.ppuRegWrite 1 v = { s with ppu := { p with mask := v } } ∧
    s.ppuRegWrite 2 v = s ∧
    s.ppuRegWrite 3 v = { s with ppu := { p with oamAddr := v } } ∧
    s.ppuRegWrite 4 v = { s with ppu := { p with oam := p.oam.write p.oamAddr.toNat v, oamAddr := p.oamAddr + 1 } } ∧
    s.ppuRegWrite 5 v =
      { s with ppu := if p.scrollW then { p with scrollY := v, scrollW := false }
                      else { p with scrollX := v, scrollW := true } } ∧
    s.ppuRegWrite 6 v =
      { s with ppu := if p.addrW then { p with vramAddr := (a &&& 0x3F00#14) ||| v.setWidth 14, addrW := false }
                      else { p with vramAddr := ((v ++ 0x00#8) ||| (a.setWidth 16 &&& 0x00FF#16)).setWidth 14,
                                    addrW := true } } ∧
    s.ppuRegWrite 7 v = { s.ppuWrite a v with ppu := { (s.ppuWrite a v).ppu with vramAddr := a + inc } }

/-- R360, R361: the controller's value, effect and write; after a strobe the eight buttons come in order from bit 0,
and every later read is 1.
The spec's own decisions it rests on: D47. -/
def Obligations.ControllerShiftsButtons : Prop :=
  (∀ c : Controller,
    (c.strobe = true → c.read = (if c.buttons.getLsbD 0 then 0x01#8 else 0#8) ∧ c.afterRead = c) ∧
    (c.strobe = false → 7 < c.index → c.read = 0x01#8 ∧ c.afterRead = c) ∧
    (c.strobe = false → c.index ≤ 7 →
      c.read = (if c.buttons.getLsbD c.index then 0x01#8 else 0#8) ∧
      c.afterRead = { c with index := c.index + 1 }) ∧
    ∀ v : Byte, c.write v = { c with strobe := v.getLsbD 0, index := if v.getLsbD 0 then 0 else c.index }) ∧
  ∀ (c : Controller) (v w : Byte) (k : Nat), v.getLsbD 0 = true → w.getLsbD 0 = false →
    (Nat.iterate Controller.afterRead k ((c.write v).write w)).read =
      if k < 8 then (if c.buttons.getLsbD k then 0x01#8 else 0#8) else 0x01#8

/-! ## The PPU's timing -/

/-- R340 to R343: one tick, in the rule's order. The list of draws leaves no oracle out: whatever a rendering oracle
answers on the visible dots, some list of draws answers the same (that form is the model's choice, assumption 4).
The spec's own decisions it rests on: D12, D33. -/
def Obligations.PpuTickAdvancesThenChecks : Prop :=
  (∀ (draws : List RenderDraw) (p : Ppu),
    let p1 : Ppu :=
      if p.dot + 1 = 341 then
        (if p.scanline + 1 = 261 then { p with dot := 0, scanline := -1, status := p.status &&& 0x3F#8 }
         else { p with dot := 0, scanline := p.scanline + 1 })
      else { p with dot := p.dot + 1 }
    let p2 : Ppu :=
      if p1.scanline = 241 ∧ p1.dot = 1 then
        { p1 with status := p1.status ||| 0x80#8, nmiPending := p1.nmiPending || p1.ctrl.getLsbD 7 }
      else p1
    let o := oracleAt draws p2.scanline p2.dot
    p.tick draws =
      (if 0 ≤ p2.scanline ∧ p2.scanline ≤ 239 then
        { p2 with status := p2.status ||| (if o.1 then 0x40#8 else 0#8) ||| (if o.2 then 0x20#8 else 0#8) }
       else p2) ∧
    (p.tickCompletesFrame = true ↔ p.dot + 1 = 341 ∧ p.scanline + 1 = 261)) ∧
  ∀ f : Int → Nat → Bool × Bool, ∃ draws : List RenderDraw,
    ∀ (scanline : Int) (dot : Nat), 0 ≤ scanline → scanline ≤ 239 → dot ≤ 340 →
      oracleAt draws scanline dot = f scanline dot

/-- R42, R341, R342: any 89342 ticks, from any raster position, complete exactly one frame and return to that position;
from reset with any ctrl, VBlank is first set, and the NMI edge raised when enabled, by tick 82523, and the first frame
event, which clears VBlank and SpriteZeroHit, is tick 89342.
The spec's own decisions it rests on: D11, D33. -/
def Obligations.FrameAndVblankComeAtTheirTicks : Prop :=
  (∀ (draws : List RenderDraw) (p : Ppu), RasterInRange p →
    Ppu.frames draws 89342 p = 1 ∧
    (p.ticks draws 89342).dot = p.dot ∧ (p.ticks draws 89342).scanline = p.scanline ∧
    ∀ n, RasterInRange (p.ticks draws n)) ∧
  ∀ (draws : List RenderDraw) (vram palette oam : Memory) (ctrl : Byte),
    let p : Ppu := { Ppu.afterReset vram palette oam with ctrl := ctrl }
    (∀ n < 82523, (p.ticks draws n).status.getLsbD 7 = false ∧ (p.ticks draws n).nmiPending = false) ∧
    (∀ n, 82523 ≤ n → n < 89342 →
      (p.ticks draws n).status.getLsbD 7 = true ∧ (p.ticks draws n).nmiPending = ctrl.getLsbD 7) ∧
    (p.ticks draws 82523).scanline = 241 ∧ (p.ticks draws 82523).dot = 1 ∧
    (∀ n < 89342, Ppu.frames draws n p = 0) ∧ Ppu.frames draws 89342 p = 1 ∧
    (p.ticks draws 89342).status.getLsbD 7 = false ∧ (p.ticks draws 89342).status.getLsbD 6 = false

/-- R321: over any sequence of Clock steps the PPU's ticks, counted as raster positions and frames, are three for each
CPU cycle added to the counter. -/
def Obligations.ThreePpuTicksPerCpuCycle : Prop :=
  ∀ (inputs : List HostInput) (s t : State) (frames : Nat), RasterInRange s.ppu →
    runClocks inputs s = some (t, frames) →
      s.cyc ≤ t.cyc ∧
      rasterPosition t.ppu + 89342 * frames = rasterPosition s.ppu + 3 * ((t.cyc : Int) - s.cyc) ∧
      RasterInRange t.ppu

/-! ## Interrupts -/

/-- R310 to R313: the entries of NMI, IRQ and BRK are one sequence with their own return address, pushed B and vector,
and the vector is two bytes of PRG ROM.
The spec's own decisions it rests on: D6, D44. -/
def Obligations.InterruptEntriesShareOneSequence : Prop :=
  ∀ s : State,
    s.nmi = entryOf s s.pc ((s.p &&& 0xEF#8) ||| 0x20#8) 0xFFFA ∧
    s.irq = entryOf s s.pc ((s.p &&& 0xEF#8) ||| 0x20#8) 0xFFFE ∧
    s.brk = entryOf s (s.pc + 1) (s.p ||| 0x30#8) 0xFFFE ∧
    (∀ (ret : Addr) (status : Byte) (vector : Addr),
      let t := entryOf s ret status vector
      t.cpuRead (stackAddr s.sp) = hiByte ret ∧ t.cpuRead (stackAddr (s.sp - 1)) = loByte ret ∧
      t.cpuRead (stackAddr (s.sp - 2)) = status) ∧
    ((s.nmi.cpuRead (stackAddr (s.sp - 2))).getLsbD 4 = false ∧
      (s.irq.cpuRead (stackAddr (s.sp - 2))).getLsbD 4 = false ∧
      (s.brk.cpuRead (stackAddr (s.sp - 2))).getLsbD 4 = true) ∧
    s.read16 0xFFFA = joinBytes (s.cart.prg.read (if s.cart.header.prgBanks = 1 then 0x3FFB else 0x7FFB))
      (s.cart.prg.read (if s.cart.header.prgBanks = 1 then 0x3FFA else 0x7FFA)) ∧
    s.read16 0xFFFE = joinBytes (s.cart.prg.read (if s.cart.header.prgBanks = 1 then 0x3FFF else 0x7FFF))
      (s.cart.prg.read (if s.cart.header.prgBanks = 1 then 0x3FFE else 0x7FFE))

/-- R317, R76: RTI undoes each of the three entries and RTS undoes JSR.
The spec's own decisions it rests on: D5. -/
def Obligations.ReturnsUndoEntriesAndCalls : Prop :=
  ∀ s : State, s.refused = none →
    let back (t : State) (pc : Addr) : Prop := ∃ u, exec .rti t = .next u ∧
      u.pc = pc ∧ u.sp = s.sp ∧ u.p = (s.p &&& 0xCF#8) ||| 0x20#8 ∧ u.a = s.a ∧ u.x = s.x ∧ u.y = s.y
    back s.nmi s.pc ∧ back s.irq s.pc ∧ back s.brk (s.pc + 1) ∧
    ∀ addr : Addr, ∃ t u, exec (.jsr addr) s = .next t ∧ exec .rts t = .next u ∧
      t.pc = addr ∧ u.pc = s.pc ∧ u.sp = s.sp ∧ u.a = s.a ∧ u.x = s.x ∧ u.y = s.y ∧ u.p = s.p

/-! ## Invariants -/

/-- The invariant holds of the state after reset, and Reset keeps it. -/
def Obligations.ResetSatisfiesTheInvariant : Prop :=
  State.reset.Inv ∧ ∀ s : State, s.Inv → s.busReset.Inv

/-- Every step keeps the invariant: B is 0 and U is 1 in P (R27), the status register's low bits read 0, the raster
counters and the controller's index stay in range, and every memory keeps its canonical form and its size. -/
def Obligations.EveryStepKeepsTheInvariant : Prop :=
  ∀ s t : State, s.Inv → step s = .next t → t.Inv

/-- R46 to R49, R362: no step changes the header, PRG ROM, CHR ROM or a parameter, and each takes one entry of the
input queue; the buttons after it are those the entry names, if it names some, and otherwise the ones before. The Clock
itself leaves the buttons: they are the host's.
The queue is the model's choice, assumption 4. -/
def Obligations.StepsKeepCartridgeRomAndParameters : Prop :=
  (∀ s t : State, step s = .next t →
    t.cart.header = s.cart.header ∧ t.cart.prg = s.cart.prg ∧ t.params = s.params ∧ t.inputs = s.inputs.tail ∧
    (s.cart.header.chrBanks ≠ 0 → t.cart.chr = s.cart.chr) ∧
    (s.params.prgRamPresent = false → t.cart.prgRam = s.cart.prgRam) ∧
    t.pad.buttons = (match s.inputs with
      | [] => s.pad.buttons
      | inp :: _ => inp.buttons.getD s.pad.buttons)) ∧
  ∀ (inp : HostInput) (s : State) (r : State × Nat), clock inp s = .next r → r.1.pad.buttons = s.pad.buttons

/-! ## Frames -/

/-- R20 to R25: an instruction leaves every register it is not said to write. -/
def Obligations.InstructionsLeaveOtherRegisters : Prop :=
  ∀ (i : Instr) (s t : State), exec i s = .next t →
    (writesA i = false → t.a = s.a) ∧ (writesX i = false → t.x = s.x) ∧ (writesY i = false → t.y = s.y) ∧
    (writesSp i = false → t.sp = s.sp) ∧ (writesPc i = false → t.pc = s.pc)

/-- R29: an instruction leaves every flag whose row of the table does not name it; after PLP and RTI, B is 0 and U
is 1. -/
def Obligations.InstructionsLeaveOtherFlags : Prop :=
  ∀ (i : Instr) (s t : State), exec i s = .next t →
    (∀ bit < 8, writesFlag i.operation bit = false → t.p.getLsbD bit = s.p.getLsbD bit) ∧
    (i.operation = .plp ∨ i.operation = .rti → t.p.getLsbD 4 = false ∧ t.p.getLsbD 5 = true)

/-- Every byte of the CPU's memories reads as before unless it is one the instruction stores to, and the PPU's memories
are as before unless a stored address is a PPU register or 0x4014. -/
def Obligations.InstructionsLeaveOtherMemory : Prop :=
  ∀ (i : Instr) (s t : State), exec i s = .next t →
    (∀ addr : Addr, s.holdsByte addr = true →
      (∀ e ∈ storedAddrs i s, s.busTarget e ≠ s.busTarget addr) → t.cpuRead addr = s.cpuRead addr) ∧
    ((∀ e ∈ storedAddrs i s, ¬(0x2000 ≤ e.toNat ∧ e.toNat ≤ 0x3FFF) ∧ e.toNat ≠ 0x4014) →
      t.ppu.vram = s.ppu.vram ∧ t.ppu.palette = s.ppu.palette ∧ t.ppu.oam = s.ppu.oam ∧ t.cart.chr = s.cart.chr)

/-- An instruction whose operand accesses are all of memory changes no PPU register, no controller state and no DMA
mark, and records an illegal write only for a store to 0x8000-0xFFFF; no instruction moves the raster, sets a button,
or changes the header, a parameter or the input queue. -/
def Obligations.MemoryAccessesLeaveDevices : Prop :=
  ∀ (i : Instr) (s t : State), exec i s = .next t →
    ((∀ e ∈ readAddrs i s ++ storedAddrs i s, s.holdsByte e = true) →
      t.ppu = s.ppu ∧ t.pad = s.pad ∧ t.dmaThisStep = s.dmaThisStep ∧ t.cart.chr = s.cart.chr ∧
      ((∀ e ∈ storedAddrs i s, e.toNat < 0x8000) →
        t.illegalWrite = s.illegalWrite ∧ t.illegalWrites = s.illegalWrites)) ∧
    t.ppu.dot = s.ppu.dot ∧ t.ppu.scanline = s.ppu.scanline ∧ t.pad.buttons = s.pad.buttons ∧
    t.cart.header = s.cart.header ∧ t.cart.prg = s.cart.prg ∧ t.params = s.params ∧ t.inputs = s.inputs ∧
    t.refused = s.refused

/-! ## What nothing reads -/

/-- R155, R392: no instruction reads the cycle counter: started later, it does the same and its counter is later by as
much.
The spec's own decisions it rests on: D41. -/
def Obligations.NoInstructionReadsTheCycleCounter : Prop :=
  ∀ (i : Instr) (s : State) (k : Nat),
    exec i { s with cyc := s.cyc + k } =
      match exec i s with
      | .next t => .next { t with cyc := t.cyc + k }
      | .fault f => .fault f
      | .refused r => .refused r

/-- R31, R34, R37: no rule reads mask, scroll_x, scroll_y or the illegal-write record: two machines that differ only
there step alike but for those. -/
def Obligations.NoStepReadsMaskScrollOrDiagnostics : Prop :=
  ∀ s s' : State, withoutUnread s = withoutUnread s' →
    match step s, step s' with
    | .next t, .next t' => withoutUnread t = withoutUnread t'
    | .refused r, .refused r' => r = r'
    | .fault _, .fault _ => True
    | _, _ => False
end

