-- ==== Sys2Proof/Laws/Decode.lean ====
section
/-!
SUPPORT. The small lemmas of byte order and operand fields.
-/

namespace Sys2Proof

theorem joinBytes_toNat (hi lo : Byte) : (joinBytes hi lo).toNat = hi.toNat * 256 + lo.toNat := by
  have h := Nat.two_pow_add_eq_or_of_lt (i := 8) lo.isLt hi.toNat
  simp only [joinBytes, BitVec.toNat_append, Nat.shiftLeft_eq, Nat.mul_comm hi.toNat (2 ^ 8)] at h ⊢
  omega

theorem hiByte_toNat (w : Addr) : (hiByte w).toNat = w.toNat / 256 := by
  have := w.isLt
  simp only [hiByte, BitVec.toNat_setWidth, BitVec.toNat_ushiftRight, Nat.shiftRight_eq_div_pow]
  omega

theorem loByte_toNat (w : Addr) : (loByte w).toNat = w.toNat % 256 := by
  simp only [loByte, BitVec.toNat_setWidth]

@[simp] theorem joinBytes_hi_lo (w : Addr) : joinBytes (hiByte w) (loByte w) = w := by
  apply BitVec.eq_of_toNat_eq
  rw [joinBytes_toNat, hiByte_toNat, loByte_toNat]
  omega

@[simp] theorem hiByte_joinBytes (hi lo : Byte) : hiByte (joinBytes hi lo) = hi := by
  apply BitVec.eq_of_toNat_eq
  have := lo.isLt
  rw [hiByte_toNat, joinBytes_toNat]
  omega

@[simp] theorem loByte_joinBytes (hi lo : Byte) : loByte (joinBytes hi lo) = lo := by
  apply BitVec.eq_of_toNat_eq
  have := lo.isLt
  rw [loByte_toNat, joinBytes_toNat]
  omega

/-- A branch offset in range survives its byte (R122). -/
theorem signedOffset_offsetByte (off : Int) (h : offsetFits off = true) :
    signedOffset (offsetByte off) = off := by
  simp only [offsetFits, Bool.and_eq_true, decide_eq_true_eq] at h
  simp only [signedOffset, offsetByte, BitVec.toInt_ofInt]
  exact Int.bmod_eq_of_le (by omega) (by omega)

/-- Every offset the decoder gives is in range. -/
theorem offsetFits_signedOffset (b : Byte) : offsetFits (signedOffset b) = true := by
  have h1 := BitVec.le_toInt b
  have h2 := BitVec.toInt_lt (x := b)
  have h3 : -128 ≤ b.toInt := by omega
  have h4 : b.toInt ≤ 127 := by omega
  simp [offsetFits, signedOffset, h3, h4]

theorem offsetByte_signedOffset (b : Byte) : offsetByte (signedOffset b) = b := by
  simp [offsetByte, signedOffset]

end Sys2Proof
end

