-- ==== Sys2Proof/Laws/Memory.lean ====
section
/-!
SUPPORT. The laws of the sparse memories: a read after a write, and the canonical form every write keeps.
-/

namespace Sys2Proof.Machine

@[simp] theorem read_nil (i : Nat) : Memory.read [] i = unwritten := rfl

theorem read_without (m : Memory) (i j : Nat) :
    (m.without i).read j = if j = i then unwritten else m.read j := by
  induction m with
  | nil => simp [Memory.without]
  | cons c rest ih =>
    obtain ⟨k, v⟩ := c
    simp only [Memory.without, Memory.read]
    by_cases hk : k = i
    · simp only [hk, if_true, ih]
      by_cases hj : j = i
      · simp [hj]
      · simp [hj, Ne.symm hj]
    · simp only [hk, if_false, Memory.read, ih]
      by_cases hj : j = i
      · subst hj; simp [hk]
      · simp [hj]

/-- An index no entry names. -/
def Memory.absent (m : Memory) (i : Nat) : Prop := ∀ c ∈ m, c.1 ≠ i

theorem without_absent (m : Memory) (i : Nat) : (m.without i).absent i := by
  induction m with
  | nil => simp [Memory.without, Memory.absent]
  | cons c rest ih =>
    obtain ⟨k, v⟩ := c
    simp only [Memory.without]
    split
    · exact ih
    · rename_i hk
      intro c hc
      rcases List.mem_cons.1 hc with rfl | hc
      · exact hk
      · exact ih c hc

theorem read_absent {m : Memory} {i : Nat} (h : m.absent i) : m.read i = unwritten := by
  induction m with
  | nil => rfl
  | cons c rest ih =>
    obtain ⟨k, v⟩ := c
    have hk : k ≠ i := h (k, v) (by simp)
    simp only [Memory.read, hk, if_false]
    exact ih fun c hc => h c (by simp [hc])

theorem read_place {m : Memory} {i : Nat} (v : Byte) (h : m.absent i) (j : Nat) :
    (m.place i v).read j = if j = i then v else m.read j := by
  induction m with
  | nil =>
    simp only [Memory.place, Memory.read]
    by_cases hj : j = i
    · simp [hj]
    · simp [hj, Ne.symm hj]
  | cons c rest ih =>
    obtain ⟨k, w⟩ := c
    have hk : k ≠ i := h (k, w) (by simp)
    have hr : Memory.absent rest i := fun c hc => h c (by simp [hc])
    simp only [Memory.place]
    split
    · simp only [Memory.read]
      by_cases hj : j = i
      · simp [hj]
      · simp [hj, Ne.symm hj]
    · simp only [Memory.read, ih hr]
      by_cases hj : j = i
      · subst hj; simp [hk]
      · simp [hj]

/-- The read-after-write law, for every memory, canonical or not. -/
theorem read_write (m : Memory) (i : Nat) (v : Byte) (j : Nat) :
    (m.write i v).read j = if j = i then v else m.read j := by
  unfold Memory.write
  split
  · rename_i hv
    rw [read_without, hv]
  · rw [read_place v (without_absent m i), read_without]
    split <;> simp_all

@[simp] theorem read_write_same (m : Memory) (i : Nat) (v : Byte) : (m.write i v).read i = v := by
  simp [read_write]

theorem read_write_other (m : Memory) {i j : Nat} (v : Byte) (h : j ≠ i) :
    (m.write i v).read j = m.read j := by
  simp [read_write, h]

/-! ## The canonical form -/

theorem wfFrom_mono {m : Memory} {lo lo' : Nat} (h : lo' ≤ lo) (hm : m.wfFrom lo = true) :
    m.wfFrom lo' = true := by
  cases m with
  | nil => rfl
  | cons c rest =>
    obtain ⟨k, v⟩ := c
    simp only [Memory.wfFrom, Bool.and_eq_true, decide_eq_true_eq] at hm ⊢
    exact ⟨⟨by omega, hm.1.2⟩, hm.2⟩

theorem without_wfFrom {m : Memory} {lo : Nat} (i : Nat) (hm : m.wfFrom lo = true) :
    (m.without i).wfFrom lo = true := by
  induction m generalizing lo with
  | nil => rfl
  | cons c rest ih =>
    obtain ⟨k, v⟩ := c
    simp only [Memory.wfFrom, Bool.and_eq_true, decide_eq_true_eq] at hm
    simp only [Memory.without]
    split
    · exact wfFrom_mono (by omega) (ih hm.2)
    · simp only [Memory.wfFrom, Bool.and_eq_true, decide_eq_true_eq]
      exact ⟨hm.1, ih hm.2⟩

theorem place_wfFrom {m : Memory} {lo i : Nat} {v : Byte} (hv : v ≠ unwritten) (hlo : lo ≤ i)
    (ha : m.absent i) (hm : m.wfFrom lo = true) : (m.place i v).wfFrom lo = true := by
  induction m generalizing lo with
  | nil => simp [Memory.place, Memory.wfFrom, hlo, hv]
  | cons c rest ih =>
    obtain ⟨k, w⟩ := c
    simp only [Memory.wfFrom, Bool.and_eq_true, decide_eq_true_eq] at hm
    have hk : k ≠ i := ha (k, w) (by simp)
    have hr : Memory.absent rest i := fun c hc => ha c (by simp [hc])
    simp only [Memory.place]
    split
    · rename_i hik
      simp [Memory.wfFrom, hlo, hv]
      exact ⟨⟨by omega, by simpa using hm.1.2⟩, hm.2⟩
    · simp only [Memory.wfFrom, Bool.and_eq_true, decide_eq_true_eq]
      exact ⟨hm.1, ih (by omega) hr hm.2⟩

/-- Every write keeps the canonical form. -/
theorem write_wf {m : Memory} (i : Nat) (v : Byte) (hm : m.wf = true) : (m.write i v).wf = true := by
  unfold Memory.write Memory.wf
  split
  · exact without_wfFrom i hm
  · rename_i hv
    exact place_wfFrom hv (Nat.zero_le _) (without_absent m i) (without_wfFrom i hm)

theorem without_within {m : Memory} {n : Nat} (i : Nat) (hm : m.within n = true) :
    (m.without i).within n = true := by
  induction m with
  | nil => rfl
  | cons c rest ih =>
    obtain ⟨k, v⟩ := c
    simp only [Memory.within, List.all_cons, Bool.and_eq_true] at hm
    simp only [Memory.without]
    split
    · exact ih hm.2
    · simp only [Memory.within, List.all_cons, Bool.and_eq_true]
      exact ⟨hm.1, ih hm.2⟩

theorem place_within {m : Memory} {n i : Nat} (v : Byte) (hi : i < n) (hm : m.within n = true) :
    (m.place i v).within n = true := by
  induction m with
  | nil => simp [Memory.place, Memory.within, hi]
  | cons c rest ih =>
    obtain ⟨k, w⟩ := c
    simp only [Memory.within, List.all_cons, Bool.and_eq_true] at hm
    simp only [Memory.place]
    split
    · simp only [Memory.within, List.all_cons, Bool.and_eq_true, decide_eq_true_eq]
      exact ⟨hi, by simpa using hm.1, hm.2⟩
    · simp only [Memory.within, List.all_cons, Bool.and_eq_true]
      exact ⟨hm.1, ih hm.2⟩

/-- A write inside the memory's size stays inside it. -/
theorem write_within {m : Memory} {n i : Nat} (v : Byte) (hi : i < n) (hm : m.within n = true) :
    (m.write i v).within n = true := by
  unfold Memory.write
  split
  · exact without_within i hm
  · exact place_within v hi (without_within i hm)

/-! ## The memory of a byte list -/

theorem ofBytesFrom_wfFrom (bytes : List Byte) (i : Nat) : (Memory.ofBytesFrom i bytes).wfFrom i = true := by
  induction bytes generalizing i with
  | nil => rfl
  | cons v rest ih =>
    simp only [Memory.ofBytesFrom]
    split
    · exact wfFrom_mono (by omega) (ih (i + 1))
    · rename_i hv
      simp [Memory.wfFrom, hv, ih]

theorem ofBytes_wf (bytes : List Byte) : (Memory.ofBytes bytes).wf = true := ofBytesFrom_wfFrom bytes 0

theorem read_ofBytesFrom (bytes : List Byte) (i j : Nat) :
    (Memory.ofBytesFrom i bytes).read (i + j) = bytes.getD j unwritten ∧
      ∀ k < i, (Memory.ofBytesFrom i bytes).read k = unwritten := by
  induction bytes generalizing i j with
  | nil => simp [Memory.ofBytesFrom]
  | cons v rest ih =>
    have hlt : ∀ k < i + 1, (Memory.ofBytesFrom (i + 1) rest).read k = unwritten := (ih (i + 1) 0).2
    simp only [Memory.ofBytesFrom]
    cases j with
    | zero =>
      split
      · rename_i hv
        exact ⟨by simp [hv, hlt i (by omega)], fun k hk => hlt k (by omega)⟩
      · refine ⟨by simp [Memory.read], fun k hk => ?_⟩
        simp only [Memory.read, show i ≠ k by omega, if_false]
        exact hlt k (by omega)
    | succ j =>
      have hj := (ih (i + 1) j).1
      rw [show i + 1 + j = i + (j + 1) by omega] at hj
      split
      · exact ⟨by simpa using hj, fun k hk => hlt k (by omega)⟩
      · refine ⟨?_, fun k hk => ?_⟩
        · simp only [Memory.read, show i ≠ i + (j + 1) by omega, if_false]
          simpa using hj
        · simp only [Memory.read, show i ≠ k by omega, if_false]
          exact hlt k (by omega)

/-- The memory of a byte list reads as the list. -/
theorem read_ofBytes (bytes : List Byte) (j : Nat) : (Memory.ofBytes bytes).read j = bytes.getD j unwritten := by
  have h := (read_ofBytesFrom bytes 0 j).1
  simpa [Memory.ofBytes] using h

/-- Two memories in canonical form that read alike are equal. -/
theorem wf_ext : ∀ (m m' : Memory) (lo : Nat), m.wfFrom lo = true → m'.wfFrom lo = true →
    (∀ i, m.read i = m'.read i) → m = m' := by
  have low : ∀ (m : Memory) (lo i : Nat), m.wfFrom lo = true → i < lo → m.read i = unwritten := by
    intro m
    induction m with
    | nil => intros; rfl
    | cons c rest ih =>
      obtain ⟨k, v⟩ := c
      intro lo i h hi
      simp only [Memory.wfFrom, Bool.and_eq_true, decide_eq_true_eq] at h
      rw [Memory.read, if_neg (by omega)]
      exact ih _ _ h.2 (by omega)
  intro m
  induction m with
  | nil =>
    intro m' lo _ h' e
    cases m' with
    | nil => rfl
    | cons c rest =>
      obtain ⟨k, v⟩ := c
      simp only [Memory.wfFrom, Bool.and_eq_true, decide_eq_true_eq] at h'
      have := e k
      simp [Memory.read] at this
      simp [← this] at h'
  | cons c rest ih =>
    obtain ⟨k, v⟩ := c
    intro m' lo h h' e
    cases m' with
    | nil =>
      simp only [Memory.wfFrom, Bool.and_eq_true, decide_eq_true_eq] at h
      have := e k
      simp [Memory.read] at this
      simp [this] at h
    | cons c' rest' =>
      obtain ⟨k', v'⟩ := c'
      simp only [Memory.wfFrom, Bool.and_eq_true, decide_eq_true_eq] at h h'
      have hk : k = k' := by
        rcases Nat.lt_trichotomy k k' with hlt | he | hlt
        · have e1 := e k
          simp only [Memory.read, if_true] at e1
          rw [if_neg (by omega), low rest' _ _ h'.2 (by omega)] at e1
          simp [e1] at h
        · exact he
        · have e1 := e k'
          simp only [Memory.read, if_true] at e1
          rw [if_neg (by omega), low rest _ _ h.2 (by omega)] at e1
          simp [← e1] at h'
      subst hk
      have hv : v = v' := by have := e k; simpa [Memory.read] using this
      subst hv
      congr 1
      apply ih _ _ h.2 h'.2
      intro i
      by_cases hi : i = k
      · subst hi; rw [low rest _ _ h.2 (by omega), low rest' _ _ h'.2 (by omega)]
      · have := e i
        simpa [Memory.read, Ne.symm hi] using this

end Sys2Proof.Machine
end

