-- ==== Sys2Proof/Laws/State.lean ====
section
/-!
SUPPORT. One lemma per field per update of the state (each true by rfl), so that no proof unfolds a record update.
-/

namespace Sys2Proof.Machine

section
variable (s : State)

@[simp] theorem setA_a (v : Byte) : (s.setA v).a = v := rfl
@[simp] theorem setA_x (v : Byte) : (s.setA v).x = s.x := rfl
@[simp] theorem setA_y (v : Byte) : (s.setA v).y = s.y := rfl
@[simp] theorem setA_sp (v : Byte) : (s.setA v).sp = s.sp := rfl
@[simp] theorem setA_p (v : Byte) : (s.setA v).p = s.p := rfl
@[simp] theorem setA_pc (v : Byte) : (s.setA v).pc = s.pc := rfl
@[simp] theorem setA_cyc (v : Byte) : (s.setA v).cyc = s.cyc := rfl
@[simp] theorem setA_ram (v : Byte) : (s.setA v).ram = s.ram := rfl
@[simp] theorem setA_ppu (v : Byte) : (s.setA v).ppu = s.ppu := rfl
@[simp] theorem setA_pad (v : Byte) : (s.setA v).pad = s.pad := rfl
@[simp] theorem setA_cart (v : Byte) : (s.setA v).cart = s.cart := rfl
@[simp] theorem setA_illegalWrite (v : Byte) : (s.setA v).illegalWrite = s.illegalWrite := rfl
@[simp] theorem setA_illegalWrites (v : Byte) : (s.setA v).illegalWrites = s.illegalWrites := rfl
@[simp] theorem setA_refused (v : Byte) : (s.setA v).refused = s.refused := rfl
@[simp] theorem setA_dmaThisStep (v : Byte) : (s.setA v).dmaThisStep = s.dmaThisStep := rfl
@[simp] theorem setA_params (v : Byte) : (s.setA v).params = s.params := rfl
@[simp] theorem setA_inputs (v : Byte) : (s.setA v).inputs = s.inputs := rfl

@[simp] theorem setX_a (v : Byte) : (s.setX v).a = s.a := rfl
@[simp] theorem setX_x (v : Byte) : (s.setX v).x = v := rfl
@[simp] theorem setX_y (v : Byte) : (s.setX v).y = s.y := rfl
@[simp] theorem setX_sp (v : Byte) : (s.setX v).sp = s.sp := rfl
@[simp] theorem setX_p (v : Byte) : (s.setX v).p = s.p := rfl
@[simp] theorem setX_pc (v : Byte) : (s.setX v).pc = s.pc := rfl
@[simp] theorem setX_cyc (v : Byte) : (s.setX v).cyc = s.cyc := rfl
@[simp] theorem setX_ram (v : Byte) : (s.setX v).ram = s.ram := rfl
@[simp] theorem setX_ppu (v : Byte) : (s.setX v).ppu = s.ppu := rfl
@[simp] theorem setX_pad (v : Byte) : (s.setX v).pad = s.pad := rfl
@[simp] theorem setX_cart (v : Byte) : (s.setX v).cart = s.cart := rfl
@[simp] theorem setX_illegalWrite (v : Byte) : (s.setX v).illegalWrite = s.illegalWrite := rfl
@[simp] theorem setX_illegalWrites (v : Byte) : (s.setX v).illegalWrites = s.illegalWrites := rfl
@[simp] theorem setX_refused (v : Byte) : (s.setX v).refused = s.refused := rfl
@[simp] theorem setX_dmaThisStep (v : Byte) : (s.setX v).dmaThisStep = s.dmaThisStep := rfl
@[simp] theorem setX_params (v : Byte) : (s.setX v).params = s.params := rfl
@[simp] theorem setX_inputs (v : Byte) : (s.setX v).inputs = s.inputs := rfl

@[simp] theorem setY_a (v : Byte) : (s.setY v).a = s.a := rfl
@[simp] theorem setY_x (v : Byte) : (s.setY v).x = s.x := rfl
@[simp] theorem setY_y (v : Byte) : (s.setY v).y = v := rfl
@[simp] theorem setY_sp (v : Byte) : (s.setY v).sp = s.sp := rfl
@[simp] theorem setY_p (v : Byte) : (s.setY v).p = s.p := rfl
@[simp] theorem setY_pc (v : Byte) : (s.setY v).pc = s.pc := rfl
@[simp] theorem setY_cyc (v : Byte) : (s.setY v).cyc = s.cyc := rfl
@[simp] theorem setY_ram (v : Byte) : (s.setY v).ram = s.ram := rfl
@[simp] theorem setY_ppu (v : Byte) : (s.setY v).ppu = s.ppu := rfl
@[simp] theorem setY_pad (v : Byte) : (s.setY v).pad = s.pad := rfl
@[simp] theorem setY_cart (v : Byte) : (s.setY v).cart = s.cart := rfl
@[simp] theorem setY_illegalWrite (v : Byte) : (s.setY v).illegalWrite = s.illegalWrite := rfl
@[simp] theorem setY_illegalWrites (v : Byte) : (s.setY v).illegalWrites = s.illegalWrites := rfl
@[simp] theorem setY_refused (v : Byte) : (s.setY v).refused = s.refused := rfl
@[simp] theorem setY_dmaThisStep (v : Byte) : (s.setY v).dmaThisStep = s.dmaThisStep := rfl
@[simp] theorem setY_params (v : Byte) : (s.setY v).params = s.params := rfl
@[simp] theorem setY_inputs (v : Byte) : (s.setY v).inputs = s.inputs := rfl

@[simp] theorem setSp_a (v : Byte) : (s.setSp v).a = s.a := rfl
@[simp] theorem setSp_x (v : Byte) : (s.setSp v).x = s.x := rfl
@[simp] theorem setSp_y (v : Byte) : (s.setSp v).y = s.y := rfl
@[simp] theorem setSp_sp (v : Byte) : (s.setSp v).sp = v := rfl
@[simp] theorem setSp_p (v : Byte) : (s.setSp v).p = s.p := rfl
@[simp] theorem setSp_pc (v : Byte) : (s.setSp v).pc = s.pc := rfl
@[simp] theorem setSp_cyc (v : Byte) : (s.setSp v).cyc = s.cyc := rfl
@[simp] theorem setSp_ram (v : Byte) : (s.setSp v).ram = s.ram := rfl
@[simp] theorem setSp_ppu (v : Byte) : (s.setSp v).ppu = s.ppu := rfl
@[simp] theorem setSp_pad (v : Byte) : (s.setSp v).pad = s.pad := rfl
@[simp] theorem setSp_cart (v : Byte) : (s.setSp v).cart = s.cart := rfl
@[simp] theorem setSp_illegalWrite (v : Byte) : (s.setSp v).illegalWrite = s.illegalWrite := rfl
@[simp] theorem setSp_illegalWrites (v : Byte) : (s.setSp v).illegalWrites = s.illegalWrites := rfl
@[simp] theorem setSp_refused (v : Byte) : (s.setSp v).refused = s.refused := rfl
@[simp] theorem setSp_dmaThisStep (v : Byte) : (s.setSp v).dmaThisStep = s.dmaThisStep := rfl
@[simp] theorem setSp_params (v : Byte) : (s.setSp v).params = s.params := rfl
@[simp] theorem setSp_inputs (v : Byte) : (s.setSp v).inputs = s.inputs := rfl

@[simp] theorem setP_a (v : Byte) : (s.setP v).a = s.a := rfl
@[simp] theorem setP_x (v : Byte) : (s.setP v).x = s.x := rfl
@[simp] theorem setP_y (v : Byte) : (s.setP v).y = s.y := rfl
@[simp] theorem setP_sp (v : Byte) : (s.setP v).sp = s.sp := rfl
@[simp] theorem setP_p (v : Byte) : (s.setP v).p = v := rfl
@[simp] theorem setP_pc (v : Byte) : (s.setP v).pc = s.pc := rfl
@[simp] theorem setP_cyc (v : Byte) : (s.setP v).cyc = s.cyc := rfl
@[simp] theorem setP_ram (v : Byte) : (s.setP v).ram = s.ram := rfl
@[simp] theorem setP_ppu (v : Byte) : (s.setP v).ppu = s.ppu := rfl
@[simp] theorem setP_pad (v : Byte) : (s.setP v).pad = s.pad := rfl
@[simp] theorem setP_cart (v : Byte) : (s.setP v).cart = s.cart := rfl
@[simp] theorem setP_illegalWrite (v : Byte) : (s.setP v).illegalWrite = s.illegalWrite := rfl
@[simp] theorem setP_illegalWrites (v : Byte) : (s.setP v).illegalWrites = s.illegalWrites := rfl
@[simp] theorem setP_refused (v : Byte) : (s.setP v).refused = s.refused := rfl
@[simp] theorem setP_dmaThisStep (v : Byte) : (s.setP v).dmaThisStep = s.dmaThisStep := rfl
@[simp] theorem setP_params (v : Byte) : (s.setP v).params = s.params := rfl
@[simp] theorem setP_inputs (v : Byte) : (s.setP v).inputs = s.inputs := rfl

@[simp] theorem setPc_a (v : Addr) : (s.setPc v).a = s.a := rfl
@[simp] theorem setPc_x (v : Addr) : (s.setPc v).x = s.x := rfl
@[simp] theorem setPc_y (v : Addr) : (s.setPc v).y = s.y := rfl
@[simp] theorem setPc_sp (v : Addr) : (s.setPc v).sp = s.sp := rfl
@[simp] theorem setPc_p (v : Addr) : (s.setPc v).p = s.p := rfl
@[simp] theorem setPc_pc (v : Addr) : (s.setPc v).pc = v := rfl
@[simp] theorem setPc_cyc (v : Addr) : (s.setPc v).cyc = s.cyc := rfl
@[simp] theorem setPc_ram (v : Addr) : (s.setPc v).ram = s.ram := rfl
@[simp] theorem setPc_ppu (v : Addr) : (s.setPc v).ppu = s.ppu := rfl
@[simp] theorem setPc_pad (v : Addr) : (s.setPc v).pad = s.pad := rfl
@[simp] theorem setPc_cart (v : Addr) : (s.setPc v).cart = s.cart := rfl
@[simp] theorem setPc_illegalWrite (v : Addr) : (s.setPc v).illegalWrite = s.illegalWrite := rfl
@[simp] theorem setPc_illegalWrites (v : Addr) : (s.setPc v).illegalWrites = s.illegalWrites := rfl
@[simp] theorem setPc_refused (v : Addr) : (s.setPc v).refused = s.refused := rfl
@[simp] theorem setPc_dmaThisStep (v : Addr) : (s.setPc v).dmaThisStep = s.dmaThisStep := rfl
@[simp] theorem setPc_params (v : Addr) : (s.setPc v).params = s.params := rfl
@[simp] theorem setPc_inputs (v : Addr) : (s.setPc v).inputs = s.inputs := rfl

@[simp] theorem setPpu_a (v : Ppu) : (s.setPpu v).a = s.a := rfl
@[simp] theorem setPpu_x (v : Ppu) : (s.setPpu v).x = s.x := rfl
@[simp] theorem setPpu_y (v : Ppu) : (s.setPpu v).y = s.y := rfl
@[simp] theorem setPpu_sp (v : Ppu) : (s.setPpu v).sp = s.sp := rfl
@[simp] theorem setPpu_p (v : Ppu) : (s.setPpu v).p = s.p := rfl
@[simp] theorem setPpu_pc (v : Ppu) : (s.setPpu v).pc = s.pc := rfl
@[simp] theorem setPpu_cyc (v : Ppu) : (s.setPpu v).cyc = s.cyc := rfl
@[simp] theorem setPpu_ram (v : Ppu) : (s.setPpu v).ram = s.ram := rfl
@[simp] theorem setPpu_ppu (v : Ppu) : (s.setPpu v).ppu = v := rfl
@[simp] theorem setPpu_pad (v : Ppu) : (s.setPpu v).pad = s.pad := rfl
@[simp] theorem setPpu_cart (v : Ppu) : (s.setPpu v).cart = s.cart := rfl
@[simp] theorem setPpu_illegalWrite (v : Ppu) : (s.setPpu v).illegalWrite = s.illegalWrite := rfl
@[simp] theorem setPpu_illegalWrites (v : Ppu) : (s.setPpu v).illegalWrites = s.illegalWrites := rfl
@[simp] theorem setPpu_refused (v : Ppu) : (s.setPpu v).refused = s.refused := rfl
@[simp] theorem setPpu_dmaThisStep (v : Ppu) : (s.setPpu v).dmaThisStep = s.dmaThisStep := rfl
@[simp] theorem setPpu_params (v : Ppu) : (s.setPpu v).params = s.params := rfl
@[simp] theorem setPpu_inputs (v : Ppu) : (s.setPpu v).inputs = s.inputs := rfl

@[simp] theorem setDmaThisStep_a (v : Bool) : (s.setDmaThisStep v).a = s.a := rfl
@[simp] theorem setDmaThisStep_x (v : Bool) : (s.setDmaThisStep v).x = s.x := rfl
@[simp] theorem setDmaThisStep_y (v : Bool) : (s.setDmaThisStep v).y = s.y := rfl
@[simp] theorem setDmaThisStep_sp (v : Bool) : (s.setDmaThisStep v).sp = s.sp := rfl
@[simp] theorem setDmaThisStep_p (v : Bool) : (s.setDmaThisStep v).p = s.p := rfl
@[simp] theorem setDmaThisStep_pc (v : Bool) : (s.setDmaThisStep v).pc = s.pc := rfl
@[simp] theorem setDmaThisStep_cyc (v : Bool) : (s.setDmaThisStep v).cyc = s.cyc := rfl
@[simp] theorem setDmaThisStep_ram (v : Bool) : (s.setDmaThisStep v).ram = s.ram := rfl
@[simp] theorem setDmaThisStep_ppu (v : Bool) : (s.setDmaThisStep v).ppu = s.ppu := rfl
@[simp] theorem setDmaThisStep_pad (v : Bool) : (s.setDmaThisStep v).pad = s.pad := rfl
@[simp] theorem setDmaThisStep_cart (v : Bool) : (s.setDmaThisStep v).cart = s.cart := rfl
@[simp] theorem setDmaThisStep_illegalWrite (v : Bool) : (s.setDmaThisStep v).illegalWrite = s.illegalWrite := rfl
@[simp] theorem setDmaThisStep_illegalWrites (v : Bool) : (s.setDmaThisStep v).illegalWrites = s.illegalWrites := rfl
@[simp] theorem setDmaThisStep_refused (v : Bool) : (s.setDmaThisStep v).refused = s.refused := rfl
@[simp] theorem setDmaThisStep_dmaThisStep (v : Bool) : (s.setDmaThisStep v).dmaThisStep = v := rfl
@[simp] theorem setDmaThisStep_params (v : Bool) : (s.setDmaThisStep v).params = s.params := rfl
@[simp] theorem setDmaThisStep_inputs (v : Bool) : (s.setDmaThisStep v).inputs = s.inputs := rfl

@[simp] theorem addCycles_a (n : Nat) : (s.addCycles n).a = s.a := rfl
@[simp] theorem addCycles_x (n : Nat) : (s.addCycles n).x = s.x := rfl
@[simp] theorem addCycles_y (n : Nat) : (s.addCycles n).y = s.y := rfl
@[simp] theorem addCycles_sp (n : Nat) : (s.addCycles n).sp = s.sp := rfl
@[simp] theorem addCycles_p (n : Nat) : (s.addCycles n).p = s.p := rfl
@[simp] theorem addCycles_pc (n : Nat) : (s.addCycles n).pc = s.pc := rfl
@[simp] theorem addCycles_cyc (n : Nat) : (s.addCycles n).cyc = s.cyc + n := rfl
@[simp] theorem addCycles_ram (n : Nat) : (s.addCycles n).ram = s.ram := rfl
@[simp] theorem addCycles_ppu (n : Nat) : (s.addCycles n).ppu = s.ppu := rfl
@[simp] theorem addCycles_pad (n : Nat) : (s.addCycles n).pad = s.pad := rfl
@[simp] theorem addCycles_cart (n : Nat) : (s.addCycles n).cart = s.cart := rfl
@[simp] theorem addCycles_illegalWrite (n : Nat) : (s.addCycles n).illegalWrite = s.illegalWrite := rfl
@[simp] theorem addCycles_illegalWrites (n : Nat) : (s.addCycles n).illegalWrites = s.illegalWrites := rfl
@[simp] theorem addCycles_refused (n : Nat) : (s.addCycles n).refused = s.refused := rfl
@[simp] theorem addCycles_dmaThisStep (n : Nat) : (s.addCycles n).dmaThisStep = s.dmaThisStep := rfl
@[simp] theorem addCycles_params (n : Nat) : (s.addCycles n).params = s.params := rfl
@[simp] theorem addCycles_inputs (n : Nat) : (s.addCycles n).inputs = s.inputs := rfl

@[simp] theorem signalIllegalWrite_a (v : Addr) : (s.signalIllegalWrite v).a = s.a := rfl
@[simp] theorem signalIllegalWrite_x (v : Addr) : (s.signalIllegalWrite v).x = s.x := rfl
@[simp] theorem signalIllegalWrite_y (v : Addr) : (s.signalIllegalWrite v).y = s.y := rfl
@[simp] theorem signalIllegalWrite_sp (v : Addr) : (s.signalIllegalWrite v).sp = s.sp := rfl
@[simp] theorem signalIllegalWrite_p (v : Addr) : (s.signalIllegalWrite v).p = s.p := rfl
@[simp] theorem signalIllegalWrite_pc (v : Addr) : (s.signalIllegalWrite v).pc = s.pc := rfl
@[simp] theorem signalIllegalWrite_cyc (v : Addr) : (s.signalIllegalWrite v).cyc = s.cyc := rfl
@[simp] theorem signalIllegalWrite_ram (v : Addr) : (s.signalIllegalWrite v).ram = s.ram := rfl
@[simp] theorem signalIllegalWrite_ppu (v : Addr) : (s.signalIllegalWrite v).ppu = s.ppu := rfl
@[simp] theorem signalIllegalWrite_pad (v : Addr) : (s.signalIllegalWrite v).pad = s.pad := rfl
@[simp] theorem signalIllegalWrite_cart (v : Addr) : (s.signalIllegalWrite v).cart = s.cart := rfl
@[simp] theorem signalIllegalWrite_illegalWrite (v : Addr) : (s.signalIllegalWrite v).illegalWrite = true := rfl
@[simp] theorem signalIllegalWrite_illegalWrites (v : Addr) : (s.signalIllegalWrite v).illegalWrites = s.illegalWrites ++ [v] := rfl
@[simp] theorem signalIllegalWrite_refused (v : Addr) : (s.signalIllegalWrite v).refused = s.refused := rfl
@[simp] theorem signalIllegalWrite_dmaThisStep (v : Addr) : (s.signalIllegalWrite v).dmaThisStep = s.dmaThisStep := rfl
@[simp] theorem signalIllegalWrite_params (v : Addr) : (s.signalIllegalWrite v).params = s.params := rfl
@[simp] theorem signalIllegalWrite_inputs (v : Addr) : (s.signalIllegalWrite v).inputs = s.inputs := rfl

@[simp] theorem raise_a (r : Refusal) : (s.raise r).a = s.a := rfl
@[simp] theorem raise_x (r : Refusal) : (s.raise r).x = s.x := rfl
@[simp] theorem raise_y (r : Refusal) : (s.raise r).y = s.y := rfl
@[simp] theorem raise_sp (r : Refusal) : (s.raise r).sp = s.sp := rfl
@[simp] theorem raise_p (r : Refusal) : (s.raise r).p = s.p := rfl
@[simp] theorem raise_pc (r : Refusal) : (s.raise r).pc = s.pc := rfl
@[simp] theorem raise_cyc (r : Refusal) : (s.raise r).cyc = s.cyc := rfl
@[simp] theorem raise_ram (r : Refusal) : (s.raise r).ram = s.ram := rfl
@[simp] theorem raise_ppu (r : Refusal) : (s.raise r).ppu = s.ppu := rfl
@[simp] theorem raise_pad (r : Refusal) : (s.raise r).pad = s.pad := rfl
@[simp] theorem raise_cart (r : Refusal) : (s.raise r).cart = s.cart := rfl
@[simp] theorem raise_illegalWrite (r : Refusal) : (s.raise r).illegalWrite = s.illegalWrite := rfl
@[simp] theorem raise_illegalWrites (r : Refusal) : (s.raise r).illegalWrites = s.illegalWrites := rfl
@[simp] theorem raise_refused (r : Refusal) : (s.raise r).refused = some (s.refused.getD r) := rfl
@[simp] theorem raise_dmaThisStep (r : Refusal) : (s.raise r).dmaThisStep = s.dmaThisStep := rfl
@[simp] theorem raise_params (r : Refusal) : (s.raise r).params = s.params := rfl
@[simp] theorem raise_inputs (r : Refusal) : (s.raise r).inputs = s.inputs := rfl

@[simp] theorem setFlag_a (i : Nat) (b : Bool) : (s.setFlag i b).a = s.a := rfl
@[simp] theorem setFlag_x (i : Nat) (b : Bool) : (s.setFlag i b).x = s.x := rfl
@[simp] theorem setFlag_y (i : Nat) (b : Bool) : (s.setFlag i b).y = s.y := rfl
@[simp] theorem setFlag_sp (i : Nat) (b : Bool) : (s.setFlag i b).sp = s.sp := rfl
@[simp] theorem setFlag_p (i : Nat) (b : Bool) : (s.setFlag i b).p = setBit s.p i b := rfl
@[simp] theorem setFlag_pc (i : Nat) (b : Bool) : (s.setFlag i b).pc = s.pc := rfl
@[simp] theorem setFlag_cyc (i : Nat) (b : Bool) : (s.setFlag i b).cyc = s.cyc := rfl
@[simp] theorem setFlag_ram (i : Nat) (b : Bool) : (s.setFlag i b).ram = s.ram := rfl
@[simp] theorem setFlag_ppu (i : Nat) (b : Bool) : (s.setFlag i b).ppu = s.ppu := rfl
@[simp] theorem setFlag_pad (i : Nat) (b : Bool) : (s.setFlag i b).pad = s.pad := rfl
@[simp] theorem setFlag_cart (i : Nat) (b : Bool) : (s.setFlag i b).cart = s.cart := rfl
@[simp] theorem setFlag_illegalWrite (i : Nat) (b : Bool) : (s.setFlag i b).illegalWrite = s.illegalWrite := rfl
@[simp] theorem setFlag_illegalWrites (i : Nat) (b : Bool) : (s.setFlag i b).illegalWrites = s.illegalWrites := rfl
@[simp] theorem setFlag_refused (i : Nat) (b : Bool) : (s.setFlag i b).refused = s.refused := rfl
@[simp] theorem setFlag_dmaThisStep (i : Nat) (b : Bool) : (s.setFlag i b).dmaThisStep = s.dmaThisStep := rfl
@[simp] theorem setFlag_params (i : Nat) (b : Bool) : (s.setFlag i b).params = s.params := rfl
@[simp] theorem setFlag_inputs (i : Nat) (b : Bool) : (s.setFlag i b).inputs = s.inputs := rfl

@[simp] theorem setNZ_a (v : Byte) : (s.setNZ v).a = s.a := rfl
@[simp] theorem setNZ_x (v : Byte) : (s.setNZ v).x = s.x := rfl
@[simp] theorem setNZ_y (v : Byte) : (s.setNZ v).y = s.y := rfl
@[simp] theorem setNZ_sp (v : Byte) : (s.setNZ v).sp = s.sp := rfl
@[simp] theorem setNZ_p (v : Byte) : (s.setNZ v).p = nzBits s.p v := rfl
@[simp] theorem setNZ_pc (v : Byte) : (s.setNZ v).pc = s.pc := rfl
@[simp] theorem setNZ_cyc (v : Byte) : (s.setNZ v).cyc = s.cyc := rfl
@[simp] theorem setNZ_ram (v : Byte) : (s.setNZ v).ram = s.ram := rfl
@[simp] theorem setNZ_ppu (v : Byte) : (s.setNZ v).ppu = s.ppu := rfl
@[simp] theorem setNZ_pad (v : Byte) : (s.setNZ v).pad = s.pad := rfl
@[simp] theorem setNZ_cart (v : Byte) : (s.setNZ v).cart = s.cart := rfl
@[simp] theorem setNZ_illegalWrite (v : Byte) : (s.setNZ v).illegalWrite = s.illegalWrite := rfl
@[simp] theorem setNZ_illegalWrites (v : Byte) : (s.setNZ v).illegalWrites = s.illegalWrites := rfl
@[simp] theorem setNZ_refused (v : Byte) : (s.setNZ v).refused = s.refused := rfl
@[simp] theorem setNZ_dmaThisStep (v : Byte) : (s.setNZ v).dmaThisStep = s.dmaThisStep := rfl
@[simp] theorem setNZ_params (v : Byte) : (s.setNZ v).params = s.params := rfl
@[simp] theorem setNZ_inputs (v : Byte) : (s.setNZ v).inputs = s.inputs := rfl

end

end Sys2Proof.Machine
end

