-- ==== Sys2Proof/Laws/Bus.lean ====
section
/-!
SUPPORT. What a bus read, a bus write, the stack and an addressing mode can change, each said once; the decoder's
value on the fixed ranges (zero page, stack page, vectors); and that no refusal arises outside FourScreen mirroring.
-/

namespace Sys2Proof.Machine

/-! ## What a read can change -/

/-- The refusal mark across an operation: it stays where the mirroring is not FourScreen, and a held mark stays. -/
def RefusedKept (s t : State) : Prop :=
  (s.mirroring ≠ .fourScreen → t.refused = s.refused) ∧ (s.refused ≠ none → t.refused = s.refused)

/-- Everything a bus read can do: at most PPU status, toggles, address and buffer, the controller's index, and the
refusal mark (R78, R88). -/
def ReadFrame (s t : State) : Prop :=
  t = { s with ppu := { s.ppu with status := t.ppu.status, scrollW := t.ppu.scrollW, addrW := t.ppu.addrW,
                                   vramAddr := t.ppu.vramAddr, readBuf := t.ppu.readBuf },
               pad := { s.pad with index := t.pad.index },
               refused := t.refused } ∧ RefusedKept s t

/-- Everything a bus write can do: RAM, the PPU less its raster counters, the controller less its buttons, CHR and
PRG RAM, the IllegalWrite record, the refusal mark and the DMA mark. -/
def WriteFrame (s t : State) : Prop :=
  t = { s with ram := t.ram, ppu := { t.ppu with dot := s.ppu.dot, scanline := s.ppu.scanline },
               pad := { t.pad with buttons := s.pad.buttons },
               cart := { s.cart with chr := t.cart.chr, prgRam := t.cart.prgRam },
               illegalWrite := t.illegalWrite, illegalWrites := t.illegalWrites,
               refused := t.refused, dmaThisStep := t.dmaThisStep } ∧ RefusedKept s t

section
variable {s t : State} (h : ReadFrame s t)
include h
theorem ReadFrame.a : t.a = s.a := by rw [h.1]
theorem ReadFrame.x : t.x = s.x := by rw [h.1]
theorem ReadFrame.y : t.y = s.y := by rw [h.1]
theorem ReadFrame.sp : t.sp = s.sp := by rw [h.1]
theorem ReadFrame.p : t.p = s.p := by rw [h.1]
theorem ReadFrame.pc : t.pc = s.pc := by rw [h.1]
theorem ReadFrame.cyc : t.cyc = s.cyc := by rw [h.1]
theorem ReadFrame.ram : t.ram = s.ram := by rw [h.1]
theorem ReadFrame.cart : t.cart = s.cart := by rw [h.1]
theorem ReadFrame.illegalWrite : t.illegalWrite = s.illegalWrite := by rw [h.1]
theorem ReadFrame.illegalWrites : t.illegalWrites = s.illegalWrites := by rw [h.1]
theorem ReadFrame.dmaThisStep : t.dmaThisStep = s.dmaThisStep := by rw [h.1]
theorem ReadFrame.params : t.params = s.params := by rw [h.1]
theorem ReadFrame.inputs : t.inputs = s.inputs := by rw [h.1]
theorem ReadFrame.ppu_ctrl : t.ppu.ctrl = s.ppu.ctrl := by rw [h.1]
theorem ReadFrame.ppu_mask : t.ppu.mask = s.ppu.mask := by rw [h.1]
theorem ReadFrame.ppu_oamAddr : t.ppu.oamAddr = s.ppu.oamAddr := by rw [h.1]
theorem ReadFrame.ppu_scrollX : t.ppu.scrollX = s.ppu.scrollX := by rw [h.1]
theorem ReadFrame.ppu_scrollY : t.ppu.scrollY = s.ppu.scrollY := by rw [h.1]
theorem ReadFrame.ppu_nmiPending : t.ppu.nmiPending = s.ppu.nmiPending := by rw [h.1]
theorem ReadFrame.ppu_dot : t.ppu.dot = s.ppu.dot := by rw [h.1]
theorem ReadFrame.ppu_scanline : t.ppu.scanline = s.ppu.scanline := by rw [h.1]
theorem ReadFrame.ppu_vram : t.ppu.vram = s.ppu.vram := by rw [h.1]
theorem ReadFrame.ppu_palette : t.ppu.palette = s.ppu.palette := by rw [h.1]
theorem ReadFrame.ppu_oam : t.ppu.oam = s.ppu.oam := by rw [h.1]
theorem ReadFrame.pad_buttons : t.pad.buttons = s.pad.buttons := by rw [h.1]
theorem ReadFrame.pad_strobe : t.pad.strobe = s.pad.strobe := by rw [h.1]
theorem ReadFrame.mirroring : t.mirroring = s.mirroring := by simp only [State.mirroring]; rw [h.1]
theorem ReadFrame.refused (hm : s.mirroring ≠ .fourScreen) : t.refused = s.refused := h.2.1 hm
end

section
variable {s t : State} (h : WriteFrame s t)
include h
theorem WriteFrame.a : t.a = s.a := by rw [h.1]
theorem WriteFrame.x : t.x = s.x := by rw [h.1]
theorem WriteFrame.y : t.y = s.y := by rw [h.1]
theorem WriteFrame.sp : t.sp = s.sp := by rw [h.1]
theorem WriteFrame.p : t.p = s.p := by rw [h.1]
theorem WriteFrame.pc : t.pc = s.pc := by rw [h.1]
theorem WriteFrame.cyc : t.cyc = s.cyc := by rw [h.1]
theorem WriteFrame.params : t.params = s.params := by rw [h.1]
theorem WriteFrame.inputs : t.inputs = s.inputs := by rw [h.1]
theorem WriteFrame.ppu_dot : t.ppu.dot = s.ppu.dot := by rw [h.1]
theorem WriteFrame.ppu_scanline : t.ppu.scanline = s.ppu.scanline := by rw [h.1]
theorem WriteFrame.pad_buttons : t.pad.buttons = s.pad.buttons := by rw [h.1]
theorem WriteFrame.header : t.cart.header = s.cart.header := by rw [h.1]
theorem WriteFrame.prg : t.cart.prg = s.cart.prg := by rw [h.1]
theorem WriteFrame.mirroring : t.mirroring = s.mirroring := by simp only [State.mirroring]; rw [h.1]
theorem WriteFrame.refused (hm : s.mirroring ≠ .fourScreen) : t.refused = s.refused := h.2.1 hm
end

theorem RefusedKept.trans {s t u : State} (hm : t.mirroring = s.mirroring) (h : RefusedKept s t)
    (h' : RefusedKept t u) : RefusedKept s u := by
  refine ⟨fun hs => ?_, fun hr => ?_⟩
  · rw [h'.1 (by rw [hm]; exact hs), h.1 hs]
  · have h1 := h.2 hr
    rw [h'.2 (by rw [h1]; exact hr), h1]

theorem RefusedKept.refl (s : State) : RefusedKept s s := ⟨fun _ => rfl, fun _ => rfl⟩

theorem RefusedKept.raise (s : State) (r : Refusal) (hm : s.mirroring = .fourScreen) :
    RefusedKept s (s.raise r) := by
  refine ⟨fun h => absurd hm h, fun h => ?_⟩
  cases hr : s.refused with
  | none => exact absurd hr h
  | some q => simp [hr]

theorem ReadFrame.refl (s : State) : ReadFrame s s := ⟨rfl, RefusedKept.refl s⟩

theorem ReadFrame.trans {s t u : State} (h : ReadFrame s t) (h' : ReadFrame t u) : ReadFrame s u := by
  refine ⟨?_, h.2.trans h.mirroring h'.2⟩
  have h1 := h.1
  have h2 := h'.1
  rw [h2]
  rw [h1]

theorem WriteFrame.refl (s : State) : WriteFrame s s := ⟨rfl, RefusedKept.refl s⟩

theorem WriteFrame.trans {s t u : State} (h : WriteFrame s t) (h' : WriteFrame t u) : WriteFrame s u := by
  refine ⟨?_, h.2.trans h.mirroring h'.2⟩
  have h1 := h.1
  have h2 := h'.1
  rw [h2]
  rw [h1]

theorem ReadFrame.toWrite {s t : State} (h : ReadFrame s t) : WriteFrame s t := by
  refine ⟨?_, h.2⟩
  have h1 := h.1
  rw [h1]

/-! ## Reads -/

theorem afterPpuRead_cases (s : State) (a : VAddr) :
    s.afterPpuRead a = s ∨ (s.mirroring = .fourScreen ∧ s.afterPpuRead a = s.raise .fourScreenUnsupported) := by
  unfold State.afterPpuRead ppuTarget
  by_cases h1 : a.toNat ≤ 0x1FFF
  · simp [h1]
  · by_cases h2 : a.toNat ≤ 0x3EFF
    · cases hm : s.mirroring <;> simp [h1, h2, ntIndex]
    · simp [h1, h2]

theorem afterPpuRegRead_frame (s : State) (r : Nat) : ReadFrame s (s.afterPpuRegRead r) := by
  unfold State.afterPpuRegRead
  split
  · exact ⟨rfl, fun _ => rfl, fun _ => rfl⟩
  · show ReadFrame s ((s.afterPpuRead s.ppu.vramAddr).setPpu _)
    rcases afterPpuRead_cases s s.ppu.vramAddr with h | ⟨hm, h⟩
    · rw [h]
      exact ⟨rfl, fun _ => rfl, fun _ => rfl⟩
    · rw [h]
      exact ⟨rfl, (RefusedKept.raise s .fourScreenUnsupported hm)⟩
  · exact ReadFrame.refl s

theorem afterRead_frame (s : State) (addr : Addr) : ReadFrame s (s.afterRead addr) := by
  unfold State.afterRead
  split
  · exact afterPpuRegRead_frame s _
  · refine ⟨?_, fun _ => rfl, fun _ => rfl⟩
    simp only [Controller.afterRead]
    repeat' split
    all_goals rfl
  · exact ReadFrame.refl s

theorem afterReadPair_frame (s : State) (lo hi : Addr) : ReadFrame s (s.afterReadPair lo hi) :=
  (afterRead_frame s lo).trans (afterRead_frame _ hi)

theorem afterRead16_frame (s : State) (addr : Addr) : ReadFrame s (s.afterRead16 addr) :=
  (afterRead_frame s addr).trans (afterRead_frame _ _)

theorem resolve_frame (o : Operand) (s : State) : ReadFrame s (resolve o s).st := by
  cases o <;> first | exact ReadFrame.refl s | exact afterReadPair_frame s _ _

theorem loadOperand_frame (o : Operand) (s : State) : ReadFrame s (loadOperand o s).st := by
  have h := resolve_frame o s
  unfold loadOperand
  split
  · exact h
  · dsimp only
    split
    · exact h.trans (afterRead_frame _ _)
    · exact h

/-! ## Writes -/

theorem ppuWrite_frame (s : State) (a : VAddr) (v : Byte) :
    WriteFrame s (s.ppuWrite a v) := by
  unfold State.ppuWrite ppuTarget
  by_cases h1 : a.toNat ≤ 0x1FFF
  · simp only [h1, if_true]
    split <;> exact ⟨rfl, fun _ => rfl, fun _ => rfl⟩
  · by_cases h2 : a.toNat ≤ 0x3EFF
    · cases hm : s.mirroring
      · simp only [h1, h2, ntIndex]; exact ⟨rfl, fun _ => rfl, fun _ => rfl⟩
      · simp only [h1, h2, ntIndex]; exact ⟨rfl, fun _ => rfl, fun _ => rfl⟩
      · simp only [h1, h2, ntIndex]; exact ⟨rfl, RefusedKept.raise s _ hm⟩
    · simp only [h1, h2]; exact ⟨rfl, fun _ => rfl, fun _ => rfl⟩

theorem ppuRegWrite_frame (s : State) (r : Nat) (v : Byte) : WriteFrame s (s.ppuRegWrite r v) := by
  unfold State.ppuRegWrite
  split
  · exact ⟨rfl, fun _ => rfl, fun _ => rfl⟩
  · exact ⟨rfl, fun _ => rfl, fun _ => rfl⟩
  · exact ⟨rfl, fun _ => rfl, fun _ => rfl⟩
  · exact ⟨rfl, fun _ => rfl, fun _ => rfl⟩
  · refine ⟨?_, fun _ => rfl, fun _ => rfl⟩
    simp only [Ppu.writeScroll]
    split <;> rfl
  · refine ⟨?_, fun _ => rfl, fun _ => rfl⟩
    simp only [Ppu.writeAddr]
    split <;> rfl
  · have h := ppuWrite_frame s s.ppu.vramAddr v
    refine h.trans ⟨rfl, fun _ => rfl, fun _ => rfl⟩
  · exact WriteFrame.refl s

theorem dmaCopy_frame (s : State) (base : Addr) (i : Nat) : WriteFrame s (s.dmaCopy base i) := by
  have h := (afterRead_frame s (base + BitVec.ofNat 16 i)).toWrite
  exact h.trans ⟨rfl, fun _ => rfl, fun _ => rfl⟩

theorem dmaCopies_frame (s : State) (base : Addr) (n : Nat) : WriteFrame s (s.dmaCopies base n) := by
  induction n with
  | zero => exact WriteFrame.refl s
  | succ n ih => exact ih.trans (dmaCopy_frame _ base n)

theorem setDmaThisStep_frame (s : State) (b : Bool) : WriteFrame s (s.setDmaThisStep b) :=
  ⟨rfl, fun _ => rfl, fun _ => rfl⟩

theorem oamDma_frame (s : State) (page : Byte) : WriteFrame s (s.oamDma page) := by
  unfold State.oamDma
  exact (dmaCopies_frame s _ _).trans (setDmaThisStep_frame _ _)

theorem cpuWrite_frame (s : State) (addr : Addr) (v : Byte) : WriteFrame s (s.cpuWrite addr v) := by
  unfold State.cpuWrite
  split
  · exact ⟨rfl, fun _ => rfl, fun _ => rfl⟩
  · exact ppuRegWrite_frame s _ v
  · exact oamDma_frame s v
  · exact ⟨rfl, fun _ => rfl, fun _ => rfl⟩
  · exact ⟨rfl, fun _ => rfl, fun _ => rfl⟩
  · exact ⟨rfl, fun _ => rfl, fun _ => rfl⟩
  · exact WriteFrame.refl s

/-! ## The decoder on the fixed ranges of R74 -/

theorem zext_toNat (b : Byte) : (zext b).toNat = b.toNat := by
  simp only [zext, BitVec.toNat_setWidth]
  exact Nat.mod_eq_of_lt (by omega)

theorem stackAddr_toNat (sp : Byte) : (stackAddr sp).toNat = 0x0100 + sp.toNat := by
  simp [stackAddr, joinBytes_toNat]

theorem ramIndex (addr : Addr) : (addr &&& 0x07FF#16).toNat = addr.toNat % 0x0800 := by
  have h := Nat.and_two_pow_sub_one_eq_mod addr.toNat 11
  simpa using h

theorem ppuRegIndex (addr : Addr) : (addr &&& 0x0007#16).toNat = addr.toNat % 8 := by
  have h := Nat.and_two_pow_sub_one_eq_mod addr.toNat 3
  simpa using h

theorem busTarget_ram (s : State) {addr : Addr} (h : addr.toNat ≤ 0x1FFF) :
    s.busTarget addr = .ram (addr.toNat % 0x0800) := by
  simp only [State.busTarget, h, if_true, ramIndex]

theorem busTarget_prgRom (s : State) {addr : Addr} (h : 0x8000 ≤ addr.toNat) :
    s.busTarget addr = .prgRom (mapPrgAddress s.cart.header addr) := by
  simp only [State.busTarget]
  rw [if_neg (by omega), if_neg (by omega), if_neg (by omega), if_neg (by omega), if_neg (by omega),
    if_neg (by omega)]

@[simp] theorem busTarget_zext (s : State) (b : Byte) : s.busTarget (zext b) = .ram b.toNat := by
  have h := b.isLt
  rw [busTarget_ram s (by rw [zext_toNat]; omega), zext_toNat, Nat.mod_eq_of_lt (by omega)]

@[simp] theorem busTarget_stackAddr (s : State) (sp : Byte) :
    s.busTarget (stackAddr sp) = .ram (0x0100 + sp.toNat) := by
  have h := sp.isLt
  rw [busTarget_ram s (by rw [stackAddr_toNat]; omega), stackAddr_toNat, Nat.mod_eq_of_lt (by omega)]

@[simp] theorem afterRead_zext (s : State) (b : Byte) : s.afterRead (zext b) = s := by
  simp [State.afterRead]

@[simp] theorem cpuRead_zext (s : State) (b : Byte) : s.cpuRead (zext b) = s.ram.read b.toNat := by
  simp [State.cpuRead]

@[simp] theorem afterReadPair_zext (s : State) (b c : Byte) : s.afterReadPair (zext b) (zext c) = s := by
  simp [State.afterReadPair]

@[simp] theorem readPair_zext (s : State) (b c : Byte) :
    s.readPair (zext b) (zext c) = joinBytes (s.ram.read c.toNat) (s.ram.read b.toNat) := by
  simp [State.readPair]

/-- A vector is read from PRG ROM, with no effect (R74). -/
theorem afterRead16_vector (s : State) {addr : Addr} (h : 0x8000 ≤ addr.toNat) (h' : addr.toNat < 0xFFFF) :
    s.afterRead16 addr = s := by
  have h2 : (addr + 1).toNat = addr.toNat + 1 := by
    rw [BitVec.toNat_add]
    exact Nat.mod_eq_of_lt (by simp; omega)
  have h3 : 0x8000 ≤ (addr + 1).toNat := by omega
  simp only [State.afterRead16, State.afterRead, busTarget_prgRom s h, busTarget_prgRom s h3]

/-- The word a vector holds: two PRG ROM bytes, the low one first. -/
theorem read16_vector (s : State) {addr : Addr} (h : 0x8000 ≤ addr.toNat) (h' : addr.toNat < 0xFFFF) :
    s.read16 addr = joinBytes (s.cart.prg.read (mapPrgAddress s.cart.header (addr + 1)))
      (s.cart.prg.read (mapPrgAddress s.cart.header addr)) := by
  have h2 : (addr + 1).toNat = addr.toNat + 1 := by
    rw [BitVec.toNat_add]
    exact Nat.mod_eq_of_lt (by simp; omega)
  have h3 : 0x8000 ≤ (addr + 1).toNat := by omega
  simp only [State.read16, State.afterRead, State.cpuRead, busTarget_prgRom s h, busTarget_prgRom s h3]

/-! ## The stack -/

/-- A push stores in RAM and moves SP, and does nothing else. -/
theorem push_eq (s : State) (v : Byte) :
    s.push v = { s with ram := s.ram.write (0x0100 + s.sp.toNat) v, sp := s.sp - 1 } := by
  simp [State.push, State.cpuWrite, State.setSp]

/-- A pull reads RAM above SP. -/
theorem pull_eq (s : State) : s.pull = s.ram.read (0x0100 + (s.sp + 1).toNat) := by
  simp [State.pull, State.cpuRead]

/-- A pull moves SP, and does nothing else. -/
theorem afterPull_eq (s : State) : s.afterPull = { s with sp := s.sp + 1 } := by
  simp [State.afterPull, State.afterRead, State.setSp]

theorem push16_eq (s : State) (v : Addr) :
    s.push16 v = { s with
      ram := (s.ram.write (0x0100 + s.sp.toNat) (hiByte v)).write (0x0100 + (s.sp - 1).toNat) (loByte v),
      sp := s.sp - 2 } := by
  simp only [State.push16, push_eq]
  congr 1
  bv_omega

theorem pull16_eq (s : State) :
    s.pull16 = joinBytes (s.ram.read (0x0100 + (s.sp + 2).toNat)) (s.ram.read (0x0100 + (s.sp + 1).toNat)) := by
  simp only [State.pull16, pull_eq, afterPull_eq]
  congr 4
  bv_omega

theorem afterPull16_eq (s : State) : s.afterPull16 = { s with sp := s.sp + 2 } := by
  simp only [State.afterPull16, afterPull_eq]
  congr 1
  bv_omega

/-- The shared interrupt sequence, in full (R312). -/
theorem enterInterrupt_eq (s : State) (ret : Addr) (status : Byte) {vector : Addr} (h : 0x8000 ≤ vector.toNat)
    (h' : vector.toNat < 0xFFFF) :
    s.enterInterrupt ret status vector = { s with
      ram := ((s.ram.write (0x0100 + s.sp.toNat) (hiByte ret)).write (0x0100 + (s.sp - 1).toNat)
        (loByte ret)).write (0x0100 + (s.sp - 2).toNat) status,
      sp := s.sp - 3, p := setBit s.p bitI true, pc := s.read16 vector } := by
  simp only [State.enterInterrupt, push16_eq, push_eq, State.setFlag, afterRead16_vector _ h h',
    read16_vector _ h h', State.setPc]
  congr 1
  bv_omega

/-! ## The end of an instruction -/

theorem finish_next {s t : State} (h : finish s = .next t) : t = s ∧ s.refused = none := by
  unfold finish at h
  split at h
  · rename_i hr
    injection h with h
    exact ⟨h.symm, hr⟩
  · injection h

theorem finish_of_none {s : State} (h : s.refused = none) : finish s = .next s := by
  simp [finish, h]

end Sys2Proof.Machine
end

