-- ==== Sys2Proof/Laws/Exec.lean ====
section
/-!
SUPPORT. The dispatch said once: `exec` is the meaning of the operation at the operand (`exec_eq`), and each shape of
an instruction is one equation. Later proofs cite these and never split the 256 arms again.
-/

namespace Sys2Proof.Machine

/-- The offset of a branch's operand. -/
def branchOffset : Operand → Int
  | .relative off => off
  | _ => 0

/-- The meaning of an operation at an operand, with the cycles of R391 and R155. -/
def meaning (op : Operation) (o : Operand) (opcode : Byte) (s : State) : Result :=
  let base := op.baseCycles o.mode
  let cares := o.mode.mayCross && op.cares
  match op with
  | .lda => readInstr o base cares State.lda s
  | .ldx => readInstr o base cares State.ldx s
  | .ldy => readInstr o base cares State.ldy s
  | .sta => storeInstr o base State.staValue s
  | .stx => storeInstr o base State.stxValue s
  | .sty => storeInstr o base State.styValue s
  | .tax => impliedInstr base State.tax s
  | .tay => impliedInstr base State.tay s
  | .tsx => impliedInstr base State.tsx s
  | .txa => impliedInstr base State.txa s
  | .txs => impliedInstr base State.txs s
  | .tya => impliedInstr base State.tya s
  | .pha => impliedInstr base State.pha s
  | .php => impliedInstr base State.php s
  | .pla => impliedInstr base State.pla s
  | .plp => impliedInstr base State.plp s
  | .inc => modifyInstr o base State.incResult State.incAfter s
  | .dec => modifyInstr o base State.decResult State.decAfter s
  | .inx => impliedInstr base State.inx s
  | .iny => impliedInstr base State.iny s
  | .dex => impliedInstr base State.dex s
  | .dey => impliedInstr base State.dey s
  | .adc => readInstr o base cares State.adc s
  | .sbc => readInstr o base cares State.sbc s
  | .and => readInstr o base cares State.and s
  | .eor => readInstr o base cares State.eor s
  | .ora => readInstr o base cares State.ora s
  | .asl => modifyInstr o base State.aslResult State.aslAfter s
  | .lsr => modifyInstr o base State.lsrResult State.lsrAfter s
  | .rol => modifyInstr o base State.rolResult State.rolAfter s
  | .ror => modifyInstr o base State.rorResult State.rorAfter s
  | .clc => impliedInstr base (fun s => s.setFlag bitC false) s
  | .cld => impliedInstr base (fun s => s.setFlag bitD false) s
  | .cli => impliedInstr base (fun s => s.setFlag bitI false) s
  | .clv => impliedInstr base (fun s => s.setFlag bitV false) s
  | .sec => impliedInstr base (fun s => s.setFlag bitC true) s
  | .sed => impliedInstr base (fun s => s.setFlag bitD true) s
  | .sei => impliedInstr base (fun s => s.setFlag bitI true) s
  | .cmp => readInstr o base cares State.cmp s
  | .cpx => readInstr o base cares State.cpx s
  | .cpy => readInstr o base cares State.cpy s
  | .bcc => branchInstr (branchOffset o) State.bccTaken s
  | .bcs => branchInstr (branchOffset o) State.bcsTaken s
  | .beq => branchInstr (branchOffset o) State.beqTaken s
  | .bmi => branchInstr (branchOffset o) State.bmiTaken s
  | .bne => branchInstr (branchOffset o) State.bneTaken s
  | .bpl => branchInstr (branchOffset o) State.bplTaken s
  | .bvc => branchInstr (branchOffset o) State.bvcTaken s
  | .bvs => branchInstr (branchOffset o) State.bvsTaken s
  | .jmp => jumpInstr o base s
  | .jsr => callInstr o base s
  | .rts => impliedInstr base State.rts s
  | .brk => impliedInstr base State.brk s
  | .rti => impliedInstr base State.rti s
  | .bit => readInstr o base cares State.bit s
  | .nop => nopInstr o base cares (o.mode != .implied && o.mode != .immediate) s
  | .lax => readInstr o base cares State.lax s
  | .sax => storeInstr o base State.saxValue s
  | .dcp => modifyInstr o base State.dcpResult State.dcpAfter s
  | .isb => modifyInstr o base State.isbResult State.isbAfter s
  | .slo => modifyInstr o base State.sloResult State.sloAfter s
  | .rla => modifyInstr o base State.rlaResult State.rlaAfter s
  | .sre => modifyInstr o base State.sreResult State.sreAfter s
  | .rra => modifyInstr o base State.rraResult State.rraAfter s
  | .unsupported => .refused (.unsupportedOpcode opcode)

/-- The dispatch is the meaning of the operation at the operand. -/
theorem exec_eq (i : Instr) (s : State) : exec i s = meaning i.operation i.operand i.opcode s := by
  cases i <;> rfl

/-! ## The stack's users as record updates -/

theorem pha_eq (s : State) :
    s.pha = { s with ram := s.ram.write (0x0100 + s.sp.toNat) s.a, sp := s.sp - 1 } := push_eq s s.a

theorem php_eq (s : State) :
    s.php = { s with ram := s.ram.write (0x0100 + s.sp.toNat) (pushedByInstr s.p), sp := s.sp - 1 } := push_eq s _

theorem pla_eq (s : State) :
    s.pla = { s with a := s.pull, p := nzBits s.p s.pull, sp := s.sp + 1 } := by
  simp only [State.pla, afterPull_eq, State.setA, State.setNZ]

theorem plp_eq (s : State) : s.plp = { s with p := pulledStatus s.pull, sp := s.sp + 1 } := by
  simp only [State.plp, afterPull_eq, State.setP]

theorem rts_eq (s : State) : s.rts = { s with pc := s.pull16 + 1, sp := s.sp + 2 } := by
  simp only [State.rts, afterPull16_eq, State.setPc]

theorem rti_eq (s : State) :
    s.rti = { s with
      p := pulledStatus (s.ram.read (0x0100 + (s.sp + 1).toNat)),
      pc := joinBytes (s.ram.read (0x0100 + (s.sp + 3).toNat)) (s.ram.read (0x0100 + (s.sp + 2).toNat)),
      sp := s.sp + 3 } := by
  simp only [State.rti, afterPull16_eq, afterPull_eq, pull16_eq, pull_eq, State.setP, State.setPc]
  have a2 : s.sp + 1 + 2 = s.sp + 3 := by bv_omega
  have a1 : s.sp + 1 + 1 = s.sp + 2 := by bv_omega
  simp only [a1, a2]

theorem brk_eq (s : State) :
    s.brk = { s with
      ram := ((s.ram.write (0x0100 + s.sp.toNat) (hiByte (s.pc + 1))).write (0x0100 + (s.sp - 1).toNat)
        (loByte (s.pc + 1))).write (0x0100 + (s.sp - 2).toNat) (pushedByInstr s.p),
      sp := s.sp - 3, p := setBit s.p bitI true, pc := s.read16 0xFFFE } :=
  enterInterrupt_eq s _ _ (by decide) (by decide)

theorem nmi_eq (s : State) :
    s.nmi = { s with
      ram := ((s.ram.write (0x0100 + s.sp.toNat) (hiByte s.pc)).write (0x0100 + (s.sp - 1).toNat)
        (loByte s.pc)).write (0x0100 + (s.sp - 2).toNat) (pushedByInterrupt s.p),
      sp := s.sp - 3, p := setBit s.p bitI true, pc := s.read16 0xFFFA } :=
  enterInterrupt_eq s _ _ (by decide) (by decide)

theorem irq_eq (s : State) :
    s.irq = { s with
      ram := ((s.ram.write (0x0100 + s.sp.toNat) (hiByte s.pc)).write (0x0100 + (s.sp - 1).toNat)
        (loByte s.pc)).write (0x0100 + (s.sp - 2).toNat) (pushedByInterrupt s.p),
      sp := s.sp - 3, p := setBit s.p bitI true, pc := s.read16 0xFFFE } :=
  enterInterrupt_eq s _ _ (by decide) (by decide)

/-! ## The state an instruction leaves, before the refusal mark is looked at -/

/-- A read instruction's effect. -/
def readEffect (o : Operand) (base : Nat) (cares : Bool) (f : State → Byte → State) (s : State) : State :=
  let m := loadOperand o s
  (f m.st m.value).addCycles (base + penalty cares m.crossed)

/-- A write instruction's effect. -/
def storeEffect (o : Operand) (base : Nat) (v : State → Byte) (s : State) : State :=
  let r := resolve o s
  (r.st.writeOperand r.ea (v r.st)).addCycles base

/-- A read-modify-write instruction's effect. -/
def modifyEffect (o : Operand) (base : Nat) (g : State → Byte → Byte) (f : State → Byte → Byte → State)
    (s : State) : State :=
  let m := loadOperand o s
  let r := g m.st m.value
  (f (m.st.writeOperand m.ea r) m.value r).addCycles base

/-- A branch's effect. -/
def branchEffect (off : Int) (taken : Bool) (s : State) : State :=
  if taken then
    (s.setPc (branchTarget s.pc off)).addCycles
      (2 + (1 + if pageCrossed s.pc (branchTarget s.pc off) then 1 else 0))
  else s.addCycles 2

/-- The effect of an operation at an operand. An unsupported one has none. -/
def effect (op : Operation) (o : Operand) (s : State) : State :=
  let base := op.baseCycles o.mode
  let cares := o.mode.mayCross && op.cares
  match op with
  | .lda => readEffect o base cares State.lda s
  | .ldx => readEffect o base cares State.ldx s
  | .ldy => readEffect o base cares State.ldy s
  | .sta => storeEffect o base State.staValue s
  | .stx => storeEffect o base State.stxValue s
  | .sty => storeEffect o base State.styValue s
  | .tax => s.tax.addCycles base
  | .tay => s.tay.addCycles base
  | .tsx => s.tsx.addCycles base
  | .txa => s.txa.addCycles base
  | .txs => s.txs.addCycles base
  | .tya => s.tya.addCycles base
  | .pha => s.pha.addCycles base
  | .php => s.php.addCycles base
  | .pla => s.pla.addCycles base
  | .plp => s.plp.addCycles base
  | .inc => modifyEffect o base State.incResult State.incAfter s
  | .dec => modifyEffect o base State.decResult State.decAfter s
  | .inx => s.inx.addCycles base
  | .iny => s.iny.addCycles base
  | .dex => s.dex.addCycles base
  | .dey => s.dey.addCycles base
  | .adc => readEffect o base cares State.adc s
  | .sbc => readEffect o base cares State.sbc s
  | .and => readEffect o base cares State.and s
  | .eor => readEffect o base cares State.eor s
  | .ora => readEffect o base cares State.ora s
  | .asl => modifyEffect o base State.aslResult State.aslAfter s
  | .lsr => modifyEffect o base State.lsrResult State.lsrAfter s
  | .rol => modifyEffect o base State.rolResult State.rolAfter s
  | .ror => modifyEffect o base State.rorResult State.rorAfter s
  | .clc => (s.setFlag bitC false).addCycles base
  | .cld => (s.setFlag bitD false).addCycles base
  | .cli => (s.setFlag bitI false).addCycles base
  | .clv => (s.setFlag bitV false).addCycles base
  | .sec => (s.setFlag bitC true).addCycles base
  | .sed => (s.setFlag bitD true).addCycles base
  | .sei => (s.setFlag bitI true).addCycles base
  | .cmp => readEffect o base cares State.cmp s
  | .cpx => readEffect o base cares State.cpx s
  | .cpy => readEffect o base cares State.cpy s
  | .bcc => branchEffect (branchOffset o) s.bccTaken s
  | .bcs => branchEffect (branchOffset o) s.bcsTaken s
  | .beq => branchEffect (branchOffset o) s.beqTaken s
  | .bmi => branchEffect (branchOffset o) s.bmiTaken s
  | .bne => branchEffect (branchOffset o) s.bneTaken s
  | .bpl => branchEffect (branchOffset o) s.bplTaken s
  | .bvc => branchEffect (branchOffset o) s.bvcTaken s
  | .bvs => branchEffect (branchOffset o) s.bvsTaken s
  | .jmp => ((resolve o s).st.jumpTo (resolve o s).ea).addCycles base
  | .jsr => (((resolve o s).st.push16 ((resolve o s).st.pc - 1)).jumpTo (resolve o s).ea).addCycles base
  | .rts => s.rts.addCycles base
  | .brk => s.brk.addCycles base
  | .rti => s.rti.addCycles base
  | .bit => readEffect o base cares State.bit s
  | .nop =>
    (if o.mode != .implied && o.mode != .immediate then (resolve o s).st.afterNopRead (resolve o s).ea
      else (resolve o s).st).addCycles (base + penalty cares (resolve o s).crossed)
  | .lax => readEffect o base cares State.lax s
  | .sax => storeEffect o base State.saxValue s
  | .dcp => modifyEffect o base State.dcpResult State.dcpAfter s
  | .isb => modifyEffect o base State.isbResult State.isbAfter s
  | .slo => modifyEffect o base State.sloResult State.sloAfter s
  | .rla => modifyEffect o base State.rlaResult State.rlaAfter s
  | .sre => modifyEffect o base State.sreResult State.sreAfter s
  | .rra => modifyEffect o base State.rraResult State.rraAfter s
  | .unsupported => s

theorem meaning_effect (op : Operation) (o : Operand) (opcode : Byte) (s : State) (h : op ≠ .unsupported) :
    meaning op o opcode s = finish (effect op o s) := by
  cases op <;> first | rfl | exact absurd rfl h | exact (apply_ite finish _ _ _).symm

/-- What an instruction leaves when it has a next state: its effect, with no refusal held. -/
theorem exec_next {i : Instr} {s t : State} (h : exec i s = .next t) :
    i.operation ≠ .unsupported ∧ t = effect i.operation i.operand s ∧ t.refused = none := by
  rw [exec_eq] at h
  by_cases hu : i.operation = .unsupported
  · rw [hu] at h
    cases h
  · rw [meaning_effect _ _ _ _ hu] at h
    obtain ⟨rfl, hr⟩ := finish_next h
    exact ⟨hu, rfl, hr⟩

theorem exec_of_effect (i : Instr) (s : State) (hu : i.operation ≠ .unsupported) :
    exec i s = finish (effect i.operation i.operand s) := by
  rw [exec_eq, meaning_effect _ _ _ _ hu]

/-! ## The shapes, in a state that cannot refuse -/

theorem resolve_refused (o : Operand) {s : State} (h : s.Ready) : (resolve o s).st.refused = none := by
  rw [(resolve_frame o s).refused h.2, h.1]

theorem loadOperand_refused (o : Operand) {s : State} (h : s.Ready) : (loadOperand o s).st.refused = none := by
  rw [(loadOperand_frame o s).refused h.2, h.1]

theorem cpuWrite_refused {s : State} (h : s.Ready) (addr : Addr) (v : Byte) : (s.cpuWrite addr v).refused = none := by
  rw [(cpuWrite_frame s addr v).refused h.2, h.1]

theorem loadOperand_ready (o : Operand) {s : State} (h : s.Ready) : (loadOperand o s).st.Ready :=
  ⟨loadOperand_refused o h, by rw [(loadOperand_frame o s).mirroring]; exact h.2⟩

theorem resolve_ready (o : Operand) {s : State} (h : s.Ready) : (resolve o s).st.Ready :=
  ⟨resolve_refused o h, by rw [(resolve_frame o s).mirroring]; exact h.2⟩

theorem finish_addCycles {s : State} (h : s.refused = none) (n : Nat) :
    finish (s.addCycles n) = .next { s with cyc := s.cyc + n } := by
  rw [finish_of_none (by simpa using h)]
  rfl

/-- A read instruction runs, where its effect leaves the refusal mark alone. -/
theorem readInstr_next (o : Operand) (base : Nat) (cares : Bool) (f : State → Byte → State) {s : State}
    (h : s.Ready) (hf : ∀ t m, (f t m).refused = t.refused) :
    readInstr o base cares f s =
      .next ((f (loadOperand o s).st (loadOperand o s).value).addCycles
        (base + penalty cares (loadOperand o s).crossed)) := by
  unfold readInstr
  exact finish_of_none (by simp only [addCycles_refused, hf]; exact loadOperand_refused o h)

/-- A store runs. -/
theorem storeInstr_next (o : Operand) (base : Nat) (v : State → Byte) {s : State} (h : s.Ready) {ea : Addr}
    (he : (resolve o s).ea = some ea) :
    storeInstr o base v s =
      .next (((resolve o s).st.cpuWrite ea (v (resolve o s).st)).addCycles base) := by
  unfold storeInstr
  simp only [he, State.writeOperand]
  exact finish_of_none (by simp only [addCycles_refused]; exact cpuWrite_refused (resolve_ready o h) _ _)

/-- A read-modify-write of memory runs. -/
theorem modifyInstr_next (o : Operand) (base : Nat) (g : State → Byte → Byte) (f : State → Byte → Byte → State)
    {s : State} (h : s.Ready) (hf : ∀ t v r, (f t v r).refused = t.refused) {ea : Addr}
    (he : (loadOperand o s).ea = some ea) :
    modifyInstr o base g f s =
      .next ((f ((loadOperand o s).st.cpuWrite ea (g (loadOperand o s).st (loadOperand o s).value))
        (loadOperand o s).value (g (loadOperand o s).st (loadOperand o s).value)).addCycles base) := by
  unfold modifyInstr
  simp only [he, State.writeOperand]
  exact finish_of_none (by simp only [addCycles_refused, hf]; exact cpuWrite_refused (loadOperand_ready o h) _ _)

/-- An instruction with no operand runs. -/
theorem impliedInstr_next (base : Nat) (f : State → State) {s : State} (h : (f s).refused = none) :
    impliedInstr base f s = .next ((f s).addCycles base) := by
  unfold impliedInstr
  exact finish_of_none (by simpa using h)

/-- The operand of a store or of a memory operation has an address. -/
theorem resolve_ea (o : Operand) (s : State) (h1 : o ≠ .implied) (h2 : o ≠ .accumulator) :
    ∃ ea, (resolve o s).ea = some ea := by
  cases o <;> first | exact absurd rfl h1 | exact absurd rfl h2 | exact ⟨_, rfl⟩

/-- Loading an operand keeps the mode's address and page signal. -/
theorem loadOperand_ea (o : Operand) (s : State) : (loadOperand o s).ea = (resolve o s).ea := by
  cases o <;> rfl

theorem loadOperand_crossed (o : Operand) (s : State) : (loadOperand o s).crossed = (resolve o s).crossed := by
  cases o <;> rfl

end Sys2Proof.Machine
end

