-- ==== Sys2Proof/Laws/Flags.lean ====
section
/-!
SUPPORT. What a one-flag write does to each bit of a byte, and the bits of the values pushed and pulled; the flags a
state shows after the register updates; what the adder makes of A and P.
-/

namespace Sys2Proof.Machine

theorem oneBit_getLsbD (bit k : Nat) (hb : bit < 8) : (1#8 <<< bit).getLsbD k = decide (k = bit) := by
  by_cases hk : k < 8
  · have h : ∀ n < 8, ∀ j < 8, (1#8 <<< n).getLsbD j = decide (j = n) := by decide
    exact h bit hb k hk
  · rw [BitVec.getLsbD_of_ge _ _ (by omega)]
    simp only [Bool.false_eq, decide_eq_false_iff_not]
    omega

/-- One bit takes the value, every other bit stays. -/
theorem setBit_bits (p : Byte) (bit : Nat) (b : Bool) (hb : bit < 8) (k : Nat) :
    (setBit p bit b).getLsbD k = if k = bit then b else p.getLsbD k := by
  have h1 := oneBit_getLsbD bit k hb
  by_cases hk : k < 8
  · cases b
    · simp only [setBit, Bool.false_eq_true, if_false, BitVec.getLsbD_and, BitVec.getLsbD_not, h1, hk]
      by_cases h : k = bit <;> simp [h]
    · simp only [setBit, if_true, BitVec.getLsbD_or, h1]
      by_cases h : k = bit <;> simp [h]
  · rw [BitVec.getLsbD_of_ge _ _ (by omega), BitVec.getLsbD_of_ge _ _ (by omega), if_neg (by omega)]

/-- `setNZ` in bits. -/
theorem nzBits_bits (p v : Byte) (k : Nat) :
    (nzBits p v).getLsbD k = if k = 7 then v.getLsbD 7 else if k = 1 then v == 0 else p.getLsbD k := by
  rw [nzBits, setBit_bits _ _ _ (by decide), setBit_bits _ _ _ (by decide)]

/-! ## The adder, R200 -/

theorem addCore_frame (s : State) (m : Byte) :
    s.addCore m = { s with a := (s.addCore m).a, p := (s.addCore m).p } := rfl

theorem addCore_a (s : State) (m : Byte) : (s.addCore m).a = addResult s.a m (s.flag bitC) := rfl

/-- P after the adder, bit by bit: N and Z from the result, V and C from the sum, the other bits as before. -/
theorem addCore_bits (s : State) (m : Byte) (k : Nat) :
    (s.addCore m).p.getLsbD k =
      if k = 7 then (addResult s.a m (s.flag bitC)).getLsbD 7
      else if k = 1 then addResult s.a m (s.flag bitC) == 0
      else if k = 6 then addOverflow s.a m (addResult s.a m (s.flag bitC))
      else if k = 0 then addCarry s.a m (s.flag bitC)
      else s.p.getLsbD k := by
  show (nzBits (setBit (setBit s.p bitC _) bitV _) _).getLsbD k = _
  rw [nzBits_bits, setBit_bits _ _ _ (by decide), setBit_bits _ _ _ (by decide)]

end Sys2Proof.Machine
end

