-- ==== Sys2Proof/Laws/Clock.lean ====
section
/-!
SUPPORT. What the fetch, the instruction step and the Clock step do, said once each; and the PPU tick's effect on the
raster counters.
-/

namespace Sys2Proof.Machine

/-! ## Fetch and step -/

theorem afterFetch_pc (n : Nat) (s : State) : (State.afterFetch n s).pc = s.pc + BitVec.ofNat 16 n := by
  induction n generalizing s with
  | zero => simp [State.afterFetch]
  | succ n ih =>
    rw [State.afterFetch, ih]
    simp only [State.afterFetchByte, State.setPc]
    bv_omega

theorem afterFetch_frame (n : Nat) (s : State) : ReadFrame s { State.afterFetch n s with pc := s.pc } := by
  induction n generalizing s with
  | zero => exact ReadFrame.refl s
  | succ n ih =>
    have h := ih s.afterFetchByte
    have h1 := afterRead_frame s s.pc
    refine h1.trans ?_
    obtain ⟨ha, hb⟩ := h
    refine ⟨?_, hb⟩
    rw [State.afterFetch]
    have := congrArg (fun t : State => { t with pc := s.pc }) ha
    simp only at this
    simp only [h1.pc]
    exact this

/-- An instruction step that has a next state fetched without a refusal and ran the decoded instruction. -/
theorem executeSingle_next {s t : State} (h : executeSingle s = .next t) :
    t.refused = none ∧ (State.afterFetch (instrLength s.fetchByte) s).refused = none ∧
      exec s.fetchInstr (State.afterFetch (instrLength s.fetchByte) s) = .next t := by
  unfold executeSingle at h
  dsimp only at h
  split at h
  · cases h
  · rename_i h0
    exact ⟨(exec_next h).2.2, h0, h⟩

/-- A step that has a next state is the fetched instruction's next state, finished by the Clock step. -/
theorem step_next {s t : State} (h : step s = .next t) : ∃ u, s.takeInput.refused = none ∧
    (let s0 := s.takeInput.setDmaThisStep false
    let s1 := State.afterFetch (instrLength s0.fetchByte) s0
    s1.refused = none ∧ exec s0.fetchInstr s1 = .next u ∧
      t = (finishClock s.nextInput (u.cyc - s.takeInput.cyc) u).1) := by
  rw [step, clockNext, clock] at h
  split at h
  · rename_i h1
    split at h1
    · cases h1
    · rename_i h2
      cases he : executeSingle (s.takeInput.setDmaThisStep false) with
      | next u =>
        rw [he] at h1
        obtain ⟨e1, e2, e3⟩ := executeSingle_next he
        refine ⟨u, h2, e2, e3, ?_⟩
        injection h1 with h1
        injection h with h
        rw [← h, ← h1]
      | fault f => cases f
      | refused r => rw [he] at h1; cases h1
  · rename_i f _; cases f
  · cases h

/-- What a step takes from the host (R49, R362): the head of the queue, whose buttons, if it names some, replace the
controller's; every other field stays. -/
theorem takeInput_eq (s : State) :
    s.takeInput = { s with
      inputs := s.inputs.tail, pad := { s.pad with buttons := s.nextInput.buttons.getD s.pad.buttons } } := by
  unfold State.takeInput
  cases s.nextInput.buttons <;> rfl

/-- What follows the instruction in a Clock step leaves the controller (R46). -/
theorem finishClock_pad (inp : HostInput) (c : Nat) (t : State) : (finishClock inp c t).1.pad = t.pad := by
  have h : ∀ (k : Pending) (w : State), (takeInterrupt k w).pad = w.pad := by
    intro k w
    cases k
    · simp only [takeInterrupt, nmi_eq]; rfl
    · simp only [takeInterrupt, irq_eq]; rfl
    · rfl
  exact h _ _

/-! ## The tick and the raster -/

theorem vblankStart_raster (p : Ppu) :
    p.vblankStart.dot = p.dot ∧ p.vblankStart.scanline = p.scanline ∧ p.vblankStart.ctrl = p.ctrl := by
  unfold Ppu.vblankStart; split <;> exact ⟨rfl, rfl, rfl⟩

theorem renderDraw_raster (d : List RenderDraw) (p : Ppu) :
    (p.renderDraw d).dot = p.dot ∧ (p.renderDraw d).scanline = p.scanline ∧ (p.renderDraw d).ctrl = p.ctrl ∧
      (p.renderDraw d).nmiPending = p.nmiPending ∧ (p.renderDraw d).status.getLsbD 7 = p.status.getLsbD 7 ∧
      (¬(0 ≤ p.scanline ∧ p.scanline ≤ 239) → p.renderDraw d = p) := by
  unfold Ppu.renderDraw; split
  · refine ⟨rfl, rfl, rfl, rfl, ?_, fun h => absurd ‹_› h⟩
    dsimp only
    generalize p.status = st
    have h7 : ∀ (x : Byte) (b : Nat), b = 5 ∨ b = 6 → (setBit x b true).getLsbD 7 = x.getLsbD 7 := by
      intro x b hb; rw [setBit_bits _ _ _ (by omega), if_neg (by omega)]
    split <;> split <;> first | rfl | (rw [h7 _ _ (by decide), h7 _ _ (by decide)]) | (rw [h7 _ _ (by decide)])
  · exact ⟨rfl, rfl, rfl, rfl, rfl, fun _ => rfl⟩

theorem advance_ctrl (p : Ppu) : p.advance.ctrl = p.ctrl := by
  unfold Ppu.advance; split; split <;> rfl; rfl

/-- The raster counters move as `advance` moves them, whatever the oracle draws. -/
theorem tick_raster (d : List RenderDraw) (p : Ppu) :
    (p.tick d).dot = p.advance.dot ∧ (p.tick d).scanline = p.advance.scanline ∧ (p.tick d).ctrl = p.ctrl := by
  unfold Ppu.tick
  have a := renderDraw_raster d p.advance.vblankStart
  have b := vblankStart_raster p.advance
  exact ⟨a.1.trans b.1, a.2.1.trans b.2.1, a.2.2.1.trans (b.2.2.trans (advance_ctrl p))⟩

theorem ticks_succ (d : List RenderDraw) (n : Nat) (p : Ppu) : p.ticks d (n + 1) = (p.ticks d n).tick d := by
  induction n generalizing p with
  | zero => rfl
  | succ n ih => rw [Ppu.ticks, ih, Ppu.ticks]

theorem frames_succ (d : List RenderDraw) (n : Nat) (p : Ppu) :
    p.frames d (n + 1) = p.frames d n + (p.ticks d n).tickCompletesFrame.toNat := by
  induction n generalizing p with
  | zero => simp [Ppu.frames, Ppu.ticks]
  | succ n ih => rw [Ppu.frames, ih, Ppu.frames, Ppu.ticks]; omega

end Sys2Proof.Machine
end

