-- ==== Sys2Proof/Laws/Host.lean ====
section
/-!
SUPPORT. What `State.reset` is in terms of the block's interface: the state that power-on leaves over the blank
cartridge, with PC loaded from the reset vector.
-/

namespace Sys2Proof.Machine

/-- R370: PC is the little-endian word at the reset vector, which the blank PRG ROM reads as 0. -/
theorem reset_pc_is_vector : State.reset.pc = State.reset.read16 0xFFFC := by decide

/-- R373: `State.reset` is power-on over the blank cartridge, the default parameters and memories with no byte
listed. -/
theorem reset_is_powerOn :
    State.reset = powerOn Cartridge.blank Config.Params.default { ram := [], vram := [], palette := [], oam := [] } := by
  decide

end Sys2Proof.Machine
end

