-- ==== Sys2Proof/Laws/Kept.lean ====
section
/-!
SUPPORT. What every bus access and every instruction keeps: which refusals can be raised, that no memory leaves its
canonical form or its size, and that an instruction is its bus accesses followed by writes of CPU registers.
-/

namespace Sys2Proof.Machine

/-! ## Refusals -/

/-- No refusal is held but R88's. -/
def OnlyFourScreen (s : State) : Prop := s.refused = none ∨ s.refused = some .fourScreenUnsupported

theorem OnlyFourScreen.raise {s : State} (h : OnlyFourScreen s) : OnlyFourScreen (s.raise .fourScreenUnsupported) := by
  rcases h with h | h <;> right <;> simp [State.raise, h]

theorem OnlyFourScreen.congr {s t : State} (h : OnlyFourScreen s) (e : t.refused = s.refused) : OnlyFourScreen t := by
  unfold OnlyFourScreen; rw [e]; exact h

theorem OnlyFourScreen.afterRead {s : State} (h : OnlyFourScreen s) (a : Addr) : OnlyFourScreen (s.afterRead a) := by
  unfold State.afterRead
  split
  · unfold State.afterPpuRegRead
    split
    · exact h
    · show OnlyFourScreen ((s.afterPpuRead s.ppu.vramAddr).setPpu _)
      rcases afterPpuRead_cases s s.ppu.vramAddr with h1 | ⟨-, h1⟩ <;> rw [h1]
      · exact h
      · exact h.raise
    · exact h
  · exact h
  · exact h

theorem OnlyFourScreen.ppuWrite {s : State} (h : OnlyFourScreen s) (a : VAddr) (v : Byte) :
    OnlyFourScreen (s.ppuWrite a v) := by
  unfold State.ppuWrite
  split
  · split <;> exact h
  · exact h
  · exact h
  · exact h.raise

theorem OnlyFourScreen.cpuWrite {s : State} (h : OnlyFourScreen s) (a : Addr) (v : Byte) :
    OnlyFourScreen (s.cpuWrite a v) := by
  unfold State.cpuWrite
  split
  · exact h
  · unfold State.ppuRegWrite
    split
    · exact h
    · exact h
    · exact h
    · exact h
    · exact h
    · exact h
    · exact h.ppuWrite _ _
    · exact h
  · have : ∀ n, OnlyFourScreen (s.dmaCopies (joinBytes v 0) n) := by
      intro n
      induction n with
      | zero => exact h
      | succ n ih => exact ih.afterRead _
    have h256 := this 256
    unfold State.oamDma
    generalize s.dmaCopies (joinBytes v 0x00) 256 = u at h256 ⊢
    exact h256
  · exact h
  · exact h
  · exact h
  · exact h

theorem OnlyFourScreen.resolve {s : State} (h : OnlyFourScreen s) (o : Operand) : OnlyFourScreen (resolve o s).st := by
  cases o <;> first | exact h | exact (h.afterRead _).afterRead _

theorem OnlyFourScreen.load {s : State} (h : OnlyFourScreen s) (o : Operand) : OnlyFourScreen (loadOperand o s).st := by
  unfold loadOperand
  split
  · exact h.resolve _
  · dsimp only
    split
    · exact (h.resolve _).afterRead _
    · exact h.resolve _

/-- No instruction raises a refusal of its own but R88's. -/
theorem OnlyFourScreen.effect {s : State} (h : OnlyFourScreen s) (op : Operation) (o : Operand) :
    OnlyFourScreen (effect op o s) := by
  have hl := h.load o
  have hr := h.resolve o
  have hw : ∀ {t : State}, OnlyFourScreen t → ∀ ea v, OnlyFourScreen (t.writeOperand ea v) := by
    intro t ht ea v
    cases ea with
    | none => exact ht
    | some a => exact ht.cpuWrite a v
  cases op <;> simp only [Sys2Proof.Machine.effect]
  all_goals first | exact h | exact hl | exact hw hr _ _ | exact hw hl _ _ | skip
  all_goals try (unfold branchEffect; split <;> exact h)
  case pla => exact h.congr (by simp [State.addCycles, pla_eq])
  case pha => exact h.congr (by simp [State.addCycles, pha_eq])
  case php => exact h.congr (by simp [State.addCycles, php_eq])
  case plp => exact h.congr (by simp [State.addCycles, plp_eq])
  case jmp => cases (Sys2Proof.Machine.resolve o s).ea <;> exact hr
  case jsr =>
    exact hr.congr (by
      cases (Sys2Proof.Machine.resolve o s).ea <;> simp [State.addCycles, push16_eq, State.jumpTo])
  case rts => exact h.congr (by simp [State.addCycles, rts_eq])
  case brk => exact h.congr (by simp [State.addCycles, brk_eq])
  case rti => exact h.congr (by simp [State.addCycles, rti_eq])
  case nop =>
    split
    · unfold State.afterNopRead
      split
      · split
        · exact hr.afterRead _
        · exact hr
      · exact hr
    · exact hr

/-- Under the loader's mirroring modes an instruction raises nothing. -/
theorem effect_kept (op : Operation) (o : Operand) (s : State) (hm : s.mirroring ≠ .fourScreen) :
    (effect op o s).refused = s.refused ∧ (effect op o s).mirroring = s.mirroring := by
  have hl := loadOperand_frame o s
  have hr := resolve_frame o s
  have rl := hl.refused hm
  have rr := hr.refused hm
  have ml := hl.mirroring
  have mr := hr.mirroring
  have hw : ∀ t : State, t.mirroring = s.mirroring → t.refused = s.refused → ∀ ea v,
      (t.writeOperand ea v).refused = s.refused ∧ (t.writeOperand ea v).mirroring = s.mirroring := by
    intro t h1 h2 ea v
    cases ea with
    | none => exact ⟨h2, h1⟩
    | some a => exact ⟨((cpuWrite_frame t a v).refused (by rw [h1]; exact hm)).trans h2,
        (cpuWrite_frame t a v).mirroring.trans h1⟩
  cases op <;> simp only [Sys2Proof.Machine.effect]
  all_goals first
    | exact ⟨rfl, rfl⟩ | exact ⟨trivial, trivial⟩ | exact ⟨rl, ml⟩ | exact hw _ mr rr _ _ | exact hw _ ml rl _ _ | skip
  all_goals try (unfold branchEffect; split <;> exact ⟨rfl, rfl⟩)
  case pha => simp [State.addCycles, pha_eq, State.mirroring]
  case php => simp [State.addCycles, php_eq, State.mirroring]
  case pla => simp [State.addCycles, pla_eq, State.mirroring]
  case plp => simp [State.addCycles, plp_eq, State.mirroring]
  case jmp => cases (Sys2Proof.Machine.resolve o s).ea <;> exact ⟨rr, mr⟩
  case jsr =>
    rw [push16_eq]
    cases (Sys2Proof.Machine.resolve o s).ea <;> exact ⟨rr, mr⟩
  case rts => simp [State.addCycles, rts_eq, State.mirroring]
  case brk => simp [State.addCycles, brk_eq, State.mirroring]
  case rti => simp [State.addCycles, rti_eq, State.mirroring]
  case nop =>
    split
    · unfold State.afterNopRead
      split
      · split
        · have := afterRead_frame (Sys2Proof.Machine.resolve o s).st
          exact ⟨((this _).refused (by rw [mr]; exact hm)).trans rr, (this _).mirroring.trans mr⟩
        · exact ⟨rr, mr⟩
      · exact ⟨rr, mr⟩
    · exact ⟨rr, mr⟩

/-! ## An instruction is its bus accesses and its register results -/

/-- Only CPU registers and the cycle counter differ. -/
def RegFrame (s t : State) : Prop :=
  t = { s with a := t.a, x := t.x, y := t.y, sp := t.sp, p := t.p, pc := t.pc, cyc := t.cyc }

/-- What a read-modify-write writes to its operand. -/
def rmwResult (op : Operation) (s : State) (v : Byte) : Byte :=
  match op with
  | .inc => s.incResult v | .dec => s.decResult v | .asl => s.aslResult v | .lsr => s.lsrResult v
  | .rol => s.rolResult v | .ror => s.rorResult v | .dcp => s.dcpResult v | .isb => s.isbResult v
  | .slo => s.sloResult v | .rla => s.rlaResult v | .sre => s.sreResult v | .rra => s.rraResult v
  | _ => v

/-- What a store writes. -/
def storeValue (op : Operation) (s : State) : Byte :=
  match op with
  | .sta => s.staValue | .stx => s.stxValue | .sty => s.styValue | .sax => s.saxValue
  | _ => 0

/-- The bus accesses of an instruction, in order, without its register results. -/
def busPart (op : Operation) (o : Operand) (s : State) : State :=
  match op with
  | .lda | .ldx | .ldy | .adc | .sbc | .and | .eor | .ora | .cmp | .cpx | .cpy | .bit | .lax => (loadOperand o s).st
  | .sta | .stx | .sty | .sax => (resolve o s).st.writeOperand (resolve o s).ea (storeValue op (resolve o s).st)
  | .asl | .lsr | .rol | .ror | .inc | .dec | .dcp | .isb | .slo | .rla | .sre | .rra =>
    (loadOperand o s).st.writeOperand (loadOperand o s).ea (rmwResult op (loadOperand o s).st (loadOperand o s).value)
  | .pha => s.push s.a
  | .php => s.push (pushedByInstr s.p)
  | .jsr => (resolve o s).st.push16 ((resolve o s).st.pc - 1)
  | .brk => (s.push16 (s.pc + 1)).push (pushedByInstr s.p)
  | .jmp => (resolve o s).st
  | .nop =>
    if o.mode != .implied && o.mode != .immediate then (resolve o s).st.afterNopRead (resolve o s).ea
    else (resolve o s).st
  | _ => s

theorem effect_busPart (op : Operation) (o : Operand) (s : State) : RegFrame (busPart op o s) (effect op o s) := by
  cases op <;> simp only [effect, busPart, readEffect, storeEffect, modifyEffect, branchEffect, rmwResult, storeValue]
  all_goals first | exact rfl | skip
  all_goals first | (split <;> exact rfl) | skip
  case pla => rw [pla_eq]; rfl
  case plp => rw [plp_eq]; rfl
  case jmp => cases (resolve o s).ea <;> exact rfl
  case jsr => cases (resolve o s).ea <;> exact rfl
  case rts => rw [rts_eq]; rfl
  case rti => rw [rti_eq]; rfl
/-! ## The memories, the PPU and the controller stay in range -/

/-- The invariant of Safety.lean less what it says of P and of the refusal mark. -/
structure MemInv (s : State) : Prop where
  ram : s.ram.Canonical Config.ramSize
  ppu : s.ppu.Inv
  index : s.pad.index ≤ 8
  chr : s.cart.chr.Canonical s.cart.header.chrBytes
  prgRam : s.cart.prgRam.Canonical Config.prgRamSize
  prg : s.cart.prg.Canonical (Config.prgBankSize * s.cart.header.prgBanks)
  illegal : s.illegalWrite = !s.illegalWrites.isEmpty

theorem canon_write {m : Memory} {n i : Nat} (v : Byte) (hi : i < n) (h : m.Canonical n) : (m.write i v).Canonical n :=
  ⟨write_wf i v h.1, write_within v hi h.2⟩

theorem MemInv.setPpu {s : State} (h : MemInv s) {p : Ppu} (hp : p.Inv) : MemInv (s.setPpu p) :=
  ⟨h.ram, hp, h.index, h.chr, h.prgRam, h.prg, h.illegal⟩

theorem status_setBit (st : Byte) (n : Nat) (hn : n = 5 ∨ n = 6 ∨ n = 7) (b : Bool) (h : st &&& 0x1F#8 = 0#8) :
    setBit st n b &&& 0x1F#8 = 0#8 := by
  rcases hn with rfl | rfl | rfl <;> revert st b <;> decide

theorem MemInv.ppuRegRead {s : State} (h : MemInv s) (r : Nat) : MemInv (s.afterPpuRegRead r) := by
  have hp := h.ppu
  unfold State.afterPpuRegRead
  split
  · exact h.setPpu
      ⟨status_setBit _ _ (by decide) _ hp.statusLow, hp.dotRange, hp.scanlineRange, hp.vram, hp.palette, hp.oam⟩
  · show MemInv ((s.afterPpuRead s.ppu.vramAddr).setPpu _)
    have : ∀ buf va, ({ s.ppu with readBuf := buf, vramAddr := va } : Ppu).Inv := fun _ _ =>
      ⟨hp.statusLow, hp.dotRange, hp.scanlineRange, hp.vram, hp.palette, hp.oam⟩
    have h2 := h.setPpu (this
      (if s.ppu.vramAddr.toNat ≥ 0x3F00 then s.ppu.readBuf else s.ppuRead s.ppu.vramAddr)
      (s.ppu.vramAddr + s.ppu.increment))
    rcases afterPpuRead_cases s s.ppu.vramAddr with h1 | ⟨-, h1⟩ <;> rw [h1]
    · exact h2
    · exact ⟨h2.ram, h2.ppu, h2.index, h2.chr, h2.prgRam, h2.prg, h2.illegal⟩
  · exact h

theorem MemInv.afterRead {s : State} (h : MemInv s) (a : Addr) : MemInv (s.afterRead a) := by
  unfold State.afterRead
  split
  · exact h.ppuRegRead _
  · refine ⟨h.ram, h.ppu, ?_, h.chr, h.prgRam, h.prg, h.illegal⟩
    have := h.index
    simp only [Controller.afterRead]
    split
    · exact this
    · split
      · exact this
      · dsimp only; omega
  · exact h

theorem ntIndex_lt {m : Mirroring} {a : VAddr} {i : Nat} (h : ntIndex m a = some i) : i < 2048 := by
  cases m <;> simp only [ntIndex, Option.some.injEq] at h
  · omega
  · omega
  · cases h

theorem palIndex_lt (a : VAddr) : palIndex a < 32 := by
  unfold palIndex; dsimp only; split <;> omega

theorem isEmpty_append {l : List Addr} {x : Addr} : (true : Bool) = !(l ++ [x]).isEmpty := by simp

theorem MemInv.ppuWrite {s : State} (h : MemInv s) (a : VAddr) (v : Byte) : MemInv (s.ppuWrite a v) := by
  have hp := h.ppu
  unfold State.ppuWrite
  split
  · rename_i i ht
    split
    · rename_i hb
      refine ⟨h.ram, h.ppu, h.index, ?_, h.prgRam, h.prg, h.illegal⟩
      have h2 := h.chr
      rw [Header.chrBytes, if_pos hb] at h2
      show Memory.Canonical _ (Header.chrBytes s.cart.header)
      rw [Header.chrBytes, if_pos hb]
      refine canon_write v ?_ h2
      unfold ppuTarget at ht
      split at ht
      · injection ht; show _ < 8192; omega
      · split at ht
        · split at ht <;> cases ht
        · cases ht
    · exact ⟨h.ram, h.ppu, h.index, h.chr, h.prgRam, h.prg, isEmpty_append⟩
  · rename_i i ht
    have hi : i < 2048 := by
      unfold ppuTarget at ht
      split at ht
      · cases ht
      · split at ht
        · split at ht
          · rename_i h3; injection ht with ht; subst ht; exact ntIndex_lt h3
          · cases ht
        · cases ht
    exact h.setPpu ⟨hp.statusLow, hp.dotRange, hp.scanlineRange, canon_write v hi hp.vram, hp.palette, hp.oam⟩
  · rename_i i ht
    have hi : i < 32 := by
      unfold ppuTarget at ht
      split at ht
      · cases ht
      · split at ht
        · split at ht <;> cases ht
        · injection ht with ht; subst ht; exact palIndex_lt _
    exact h.setPpu ⟨hp.statusLow, hp.dotRange, hp.scanlineRange, hp.vram, canon_write v hi hp.palette, hp.oam⟩
  · exact ⟨h.ram, h.ppu, h.index, h.chr, h.prgRam, h.prg, h.illegal⟩

theorem MemInv.ppuRegWrite {s : State} (h : MemInv s) (r : Nat) (v : Byte) : MemInv (s.ppuRegWrite r v) := by
  have hp := h.ppu
  unfold State.ppuRegWrite
  split
  · exact h.setPpu ⟨hp.statusLow, hp.dotRange, hp.scanlineRange, hp.vram, hp.palette, hp.oam⟩
  · exact h.setPpu ⟨hp.statusLow, hp.dotRange, hp.scanlineRange, hp.vram, hp.palette, hp.oam⟩
  · exact h.setPpu ⟨hp.statusLow, hp.dotRange, hp.scanlineRange, hp.vram, hp.palette, hp.oam⟩
  · exact h.setPpu ⟨hp.statusLow, hp.dotRange, hp.scanlineRange, hp.vram, hp.palette,
      canon_write v s.ppu.oamAddr.isLt hp.oam⟩
  · refine h.setPpu ?_
    unfold Ppu.writeScroll
    split <;> exact ⟨hp.statusLow, hp.dotRange, hp.scanlineRange, hp.vram, hp.palette, hp.oam⟩
  · refine h.setPpu ?_
    unfold Ppu.writeAddr; split <;> exact ⟨hp.statusLow, hp.dotRange, hp.scanlineRange, hp.vram, hp.palette, hp.oam⟩
  · have h2 := h.ppuWrite s.ppu.vramAddr v
    have hp := h2.ppu
    exact h2.setPpu ⟨hp.statusLow, hp.dotRange, hp.scanlineRange, hp.vram, hp.palette, hp.oam⟩
  · exact h

theorem MemInv.dmaCopies {s : State} (h : MemInv s) (base : Addr) (n : Nat) : MemInv (s.dmaCopies base n) := by
  induction n with
  | zero => exact h
  | succ n ih =>
    have h2 := ih.afterRead (base + BitVec.ofNat 16 n)
    have hp := h2.ppu
    exact h2.setPpu ⟨hp.statusLow, hp.dotRange, hp.scanlineRange, hp.vram, hp.palette,
      canon_write _ (BitVec.isLt _) hp.oam⟩

theorem MemInv.cpuWrite {s : State} (h : MemInv s) (a : Addr) (v : Byte) : MemInv (s.cpuWrite a v) := by
  unfold State.cpuWrite
  split
  · rename_i i ht
    refine ⟨canon_write v ?_ h.ram, h.ppu, h.index, h.chr, h.prgRam, h.prg, h.illegal⟩
    unfold State.busTarget at ht
    split at ht
    · injection ht with ht; subst ht; rw [ramIndex]; exact Nat.mod_lt _ (by decide)
    · repeat (split at ht; · cases ht)
      split at ht
      · split at ht <;> cases ht
      · cases ht
  · exact h.ppuRegWrite _ _
  · have h2 := h.dmaCopies (joinBytes v 0) 256
    unfold State.oamDma
    generalize s.dmaCopies (joinBytes v 0x00) 256 = u at h2 ⊢
    exact ⟨h2.ram, h2.ppu, h2.index, h2.chr, h2.prgRam, h2.prg, h2.illegal⟩
  · refine ⟨h.ram, h.ppu, ?_, h.chr, h.prgRam, h.prg, h.illegal⟩
    have := h.index
    simp only [Controller.write]
    split <;> omega
  · rename_i i ht
    refine ⟨h.ram, h.ppu, h.index, h.chr, canon_write v ?_ h.prgRam, h.prg, h.illegal⟩
    unfold State.busTarget at ht
    repeat (split at ht; · cases ht)
    split at ht
    · split at ht
      · injection ht with ht; show _ < 8192; omega
      · cases ht
    · cases ht
  · exact ⟨h.ram, h.ppu, h.index, h.chr, h.prgRam, h.prg, isEmpty_append⟩
  · exact h

theorem MemInv.regs {s t : State} (h : MemInv s) (e : RegFrame s t) : MemInv t := by
  rw [RegFrame] at e; rw [e]; exact ⟨h.ram, h.ppu, h.index, h.chr, h.prgRam, h.prg, h.illegal⟩

theorem MemInv.resolve {s : State} (h : MemInv s) (o : Operand) : MemInv (resolve o s).st := by
  cases o <;> first | exact h | exact (h.afterRead _).afterRead _

theorem MemInv.load {s : State} (h : MemInv s) (o : Operand) : MemInv (loadOperand o s).st := by
  unfold loadOperand
  split
  · exact h.resolve _
  · dsimp only
    split
    · exact (h.resolve _).afterRead _
    · exact h.resolve _

theorem MemInv.writeOp {s : State} (h : MemInv s) (ea : Option Addr) (v : Byte) : MemInv (s.writeOperand ea v) := by
  cases ea with
  | none => exact h.regs rfl
  | some a => exact h.cpuWrite a v

theorem MemInv.push {s : State} (h : MemInv s) (v : Byte) : MemInv (s.push v) := (h.cpuWrite _ _).regs rfl

theorem MemInv.busPart {s : State} (h : MemInv s) (op : Operation) (o : Operand) : MemInv (busPart op o s) := by
  have h1 := h.load o
  have h2 := h.resolve o
  cases op <;> simp only [Sys2Proof.Machine.busPart]
  all_goals first
    | with_reducible exact h | with_reducible exact h1 | with_reducible exact h2 | with_reducible exact h1.writeOp _ _
    | with_reducible exact h2.writeOp _ _ | with_reducible exact h.push _ | skip
  case jsr => exact (h2.push _).push _
  case brk => exact ((h.push _).push _).push _
  case nop =>
   split
   · unfold State.afterNopRead
     split
     · split
       · exact h2.afterRead _
       · exact h2
     · exact h2
   · exact h2

theorem MemInv.effect {s : State} (h : MemInv s) (op : Operation) (o : Operand) : MemInv (effect op o s) :=
  (h.busPart op o).regs (effect_busPart op o s)

/-- R35, R41: a tick keeps the PPU's part of the invariant. -/
theorem tick_inv (p : Ppu) (draws : List RenderDraw) (h : p.Inv) : (p.tick draws).Inv := by
  have a1 : p.advance.Inv := by
    unfold Ppu.advance
    have hd := h.dotRange
    have hs := h.scanlineRange
    split
    · split
      · exact
          ⟨status_setBit _ _ (by decide) _ (status_setBit _ _ (by decide) _ h.statusLow), by simp, by simp, h.vram,
            h.palette, h.oam⟩
      · exact ⟨h.statusLow, by simp, by dsimp only; omega, h.vram, h.palette, h.oam⟩
    · rename_i h1
      refine ⟨h.statusLow, ?_, hs, h.vram, h.palette, h.oam⟩
      have : dotsPerLine = 341 := rfl
      dsimp only; omega
  have a2 : ∀ q : Ppu, q.Inv → q.vblankStart.Inv := by
    intro q h
    unfold Ppu.vblankStart
    split
    · exact ⟨status_setBit _ _ (by decide) _ h.statusLow, h.dotRange, h.scanlineRange, h.vram, h.palette, h.oam⟩
    · exact h
  have a3 : ∀ q : Ppu, q.Inv → (q.renderDraw draws).Inv := by
    intro q h
    unfold Ppu.renderDraw
    split
    · refine ⟨?_, h.dotRange, h.scanlineRange, h.vram, h.palette, h.oam⟩
      dsimp only
      split
      · split
        · exact status_setBit _ _ (by decide) _ (status_setBit _ _ (by decide) _ h.statusLow)
        · exact status_setBit _ _ (by decide) _ h.statusLow
      · split
        · exact status_setBit _ _ (by decide) _ h.statusLow
        · exact h.statusLow
    · exact h
  exact a3 _ (a2 _ a1)

theorem ticks_inv (draws : List RenderDraw) (n : Nat) (p : Ppu) (h : p.Inv) : (p.ticks draws n).Inv := by
  induction n generalizing p with
  | zero => exact h
  | succ n ih => exact ih _ (tick_inv p draws h)

end Sys2Proof.Machine
end

