-- ==== Sys2Proof/Laws/PerInstr.lean ====
section
/-!
SUPPORT. The statement made of every instruction as syntax, one lemma per constructor: its encoding has the length its
opcode byte fixes (spec/30_encoding.md R120), and the table's entry for that byte, given the operand bytes of the
encoding, is the instruction itself.
-/

namespace Sys2Proof.Laws.Encoding

/-- What holds of one well-formed instruction as syntax. -/
def Statement (i : Instr) : Prop :=
  i.wf = true →
    (encode i).length = instrLength i.opcode ∧
    decodeOp i.opcode ((encode i).getD 1 0) ((encode i).getD 2 0) = i

theorem brk : Statement .brk :=
  fun _ => ⟨show _ = instrLength 0x00 from rfl,
    show decodeOp 0x00 0 0 = _ from rfl⟩
theorem oraIndX (zp : Byte) : Statement (.oraIndX zp) :=
  fun _ => ⟨show _ = instrLength 0x01 from rfl,
    show decodeOp 0x01 zp 0 = _ from rfl⟩
theorem jam02 : Statement .jam02 :=
  fun _ => ⟨show _ = instrLength 0x02 from rfl,
    show decodeOp 0x02 0 0 = _ from rfl⟩
theorem sloIndX (zp : Byte) : Statement (.sloIndX zp) :=
  fun _ => ⟨show _ = instrLength 0x03 from rfl,
    show decodeOp 0x03 zp 0 = _ from rfl⟩
theorem nopZp04 (zp : Byte) : Statement (.nopZp04 zp) :=
  fun _ => ⟨show _ = instrLength 0x04 from rfl,
    show decodeOp 0x04 zp 0 = _ from rfl⟩
theorem oraZp (zp : Byte) : Statement (.oraZp zp) :=
  fun _ => ⟨show _ = instrLength 0x05 from rfl,
    show decodeOp 0x05 zp 0 = _ from rfl⟩
theorem aslZp (zp : Byte) : Statement (.aslZp zp) :=
  fun _ => ⟨show _ = instrLength 0x06 from rfl,
    show decodeOp 0x06 zp 0 = _ from rfl⟩
theorem sloZp (zp : Byte) : Statement (.sloZp zp) :=
  fun _ => ⟨show _ = instrLength 0x07 from rfl,
    show decodeOp 0x07 zp 0 = _ from rfl⟩
theorem php : Statement .php :=
  fun _ => ⟨show _ = instrLength 0x08 from rfl,
    show decodeOp 0x08 0 0 = _ from rfl⟩
theorem oraImm (v : Byte) : Statement (.oraImm v) :=
  fun _ => ⟨show _ = instrLength 0x09 from rfl,
    show decodeOp 0x09 v 0 = _ from rfl⟩
theorem aslAcc : Statement .aslAcc :=
  fun _ => ⟨show _ = instrLength 0x0A from rfl,
    show decodeOp 0x0A 0 0 = _ from rfl⟩
theorem anc0B : Statement .anc0B :=
  fun _ => ⟨show _ = instrLength 0x0B from rfl,
    show decodeOp 0x0B 0 0 = _ from rfl⟩
theorem nopAbs0C (addr : Addr) : Statement (.nopAbs0C addr) :=
  fun _ => ⟨show _ = instrLength 0x0C from rfl,
    show decodeOp 0x0C (loByte addr) (hiByte addr) = _ from congrArg Instr.nopAbs0C (joinBytes_hi_lo addr)⟩
theorem oraAbs (addr : Addr) : Statement (.oraAbs addr) :=
  fun _ => ⟨show _ = instrLength 0x0D from rfl,
    show decodeOp 0x0D (loByte addr) (hiByte addr) = _ from congrArg Instr.oraAbs (joinBytes_hi_lo addr)⟩
theorem aslAbs (addr : Addr) : Statement (.aslAbs addr) :=
  fun _ => ⟨show _ = instrLength 0x0E from rfl,
    show decodeOp 0x0E (loByte addr) (hiByte addr) = _ from congrArg Instr.aslAbs (joinBytes_hi_lo addr)⟩
theorem sloAbs (addr : Addr) : Statement (.sloAbs addr) :=
  fun _ => ⟨show _ = instrLength 0x0F from rfl,
    show decodeOp 0x0F (loByte addr) (hiByte addr) = _ from congrArg Instr.sloAbs (joinBytes_hi_lo addr)⟩
theorem bpl (off : Int) : Statement (.bpl off) :=
  fun h => ⟨show _ = instrLength 0x10 from rfl,
    show decodeOp 0x10 (offsetByte off) 0 = _ from congrArg Instr.bpl (signedOffset_offsetByte off h)⟩
theorem oraIndY (zp : Byte) : Statement (.oraIndY zp) :=
  fun _ => ⟨show _ = instrLength 0x11 from rfl,
    show decodeOp 0x11 zp 0 = _ from rfl⟩
theorem jam12 : Statement .jam12 :=
  fun _ => ⟨show _ = instrLength 0x12 from rfl,
    show decodeOp 0x12 0 0 = _ from rfl⟩
theorem sloIndY (zp : Byte) : Statement (.sloIndY zp) :=
  fun _ => ⟨show _ = instrLength 0x13 from rfl,
    show decodeOp 0x13 zp 0 = _ from rfl⟩
theorem nopZpX14 (zp : Byte) : Statement (.nopZpX14 zp) :=
  fun _ => ⟨show _ = instrLength 0x14 from rfl,
    show decodeOp 0x14 zp 0 = _ from rfl⟩
theorem oraZpX (zp : Byte) : Statement (.oraZpX zp) :=
  fun _ => ⟨show _ = instrLength 0x15 from rfl,
    show decodeOp 0x15 zp 0 = _ from rfl⟩
theorem aslZpX (zp : Byte) : Statement (.aslZpX zp) :=
  fun _ => ⟨show _ = instrLength 0x16 from rfl,
    show decodeOp 0x16 zp 0 = _ from rfl⟩
theorem sloZpX (zp : Byte) : Statement (.sloZpX zp) :=
  fun _ => ⟨show _ = instrLength 0x17 from rfl,
    show decodeOp 0x17 zp 0 = _ from rfl⟩
theorem clc : Statement .clc :=
  fun _ => ⟨show _ = instrLength 0x18 from rfl,
    show decodeOp 0x18 0 0 = _ from rfl⟩
theorem oraAbsY (addr : Addr) : Statement (.oraAbsY addr) :=
  fun _ => ⟨show _ = instrLength 0x19 from rfl,
    show decodeOp 0x19 (loByte addr) (hiByte addr) = _ from congrArg Instr.oraAbsY (joinBytes_hi_lo addr)⟩
theorem nop1A : Statement .nop1A :=
  fun _ => ⟨show _ = instrLength 0x1A from rfl,
    show decodeOp 0x1A 0 0 = _ from rfl⟩
theorem sloAbsY (addr : Addr) : Statement (.sloAbsY addr) :=
  fun _ => ⟨show _ = instrLength 0x1B from rfl,
    show decodeOp 0x1B (loByte addr) (hiByte addr) = _ from congrArg Instr.sloAbsY (joinBytes_hi_lo addr)⟩
theorem nopAbsX1C (addr : Addr) : Statement (.nopAbsX1C addr) :=
  fun _ => ⟨show _ = instrLength 0x1C from rfl,
    show decodeOp 0x1C (loByte addr) (hiByte addr) = _ from congrArg Instr.nopAbsX1C (joinBytes_hi_lo addr)⟩
theorem oraAbsX (addr : Addr) : Statement (.oraAbsX addr) :=
  fun _ => ⟨show _ = instrLength 0x1D from rfl,
    show decodeOp 0x1D (loByte addr) (hiByte addr) = _ from congrArg Instr.oraAbsX (joinBytes_hi_lo addr)⟩
theorem aslAbsX (addr : Addr) : Statement (.aslAbsX addr) :=
  fun _ => ⟨show _ = instrLength 0x1E from rfl,
    show decodeOp 0x1E (loByte addr) (hiByte addr) = _ from congrArg Instr.aslAbsX (joinBytes_hi_lo addr)⟩
theorem sloAbsX (addr : Addr) : Statement (.sloAbsX addr) :=
  fun _ => ⟨show _ = instrLength 0x1F from rfl,
    show decodeOp 0x1F (loByte addr) (hiByte addr) = _ from congrArg Instr.sloAbsX (joinBytes_hi_lo addr)⟩
theorem jsr (addr : Addr) : Statement (.jsr addr) :=
  fun _ => ⟨show _ = instrLength 0x20 from rfl,
    show decodeOp 0x20 (loByte addr) (hiByte addr) = _ from congrArg Instr.jsr (joinBytes_hi_lo addr)⟩
theorem andIndX (zp : Byte) : Statement (.andIndX zp) :=
  fun _ => ⟨show _ = instrLength 0x21 from rfl,
    show decodeOp 0x21 zp 0 = _ from rfl⟩
theorem jam22 : Statement .jam22 :=
  fun _ => ⟨show _ = instrLength 0x22 from rfl,
    show decodeOp 0x22 0 0 = _ from rfl⟩
theorem rlaIndX (zp : Byte) : Statement (.rlaIndX zp) :=
  fun _ => ⟨show _ = instrLength 0x23 from rfl,
    show decodeOp 0x23 zp 0 = _ from rfl⟩
theorem bitZp (zp : Byte) : Statement (.bitZp zp) :=
  fun _ => ⟨show _ = instrLength 0x24 from rfl,
    show decodeOp 0x24 zp 0 = _ from rfl⟩
theorem andZp (zp : Byte) : Statement (.andZp zp) :=
  fun _ => ⟨show _ = instrLength 0x25 from rfl,
    show decodeOp 0x25 zp 0 = _ from rfl⟩
theorem rolZp (zp : Byte) : Statement (.rolZp zp) :=
  fun _ => ⟨show _ = instrLength 0x26 from rfl,
    show decodeOp 0x26 zp 0 = _ from rfl⟩
theorem rlaZp (zp : Byte) : Statement (.rlaZp zp) :=
  fun _ => ⟨show _ = instrLength 0x27 from rfl,
    show decodeOp 0x27 zp 0 = _ from rfl⟩
theorem plp : Statement .plp :=
  fun _ => ⟨show _ = instrLength 0x28 from rfl,
    show decodeOp 0x28 0 0 = _ from rfl⟩
theorem andImm (v : Byte) : Statement (.andImm v) :=
  fun _ => ⟨show _ = instrLength 0x29 from rfl,
    show decodeOp 0x29 v 0 = _ from rfl⟩
theorem rolAcc : Statement .rolAcc :=
  fun _ => ⟨show _ = instrLength 0x2A from rfl,
    show decodeOp 0x2A 0 0 = _ from rfl⟩
theorem anc2B : Statement .anc2B :=
  fun _ => ⟨show _ = instrLength 0x2B from rfl,
    show decodeOp 0x2B 0 0 = _ from rfl⟩
theorem bitAbs (addr : Addr) : Statement (.bitAbs addr) :=
  fun _ => ⟨show _ = instrLength 0x2C from rfl,
    show decodeOp 0x2C (loByte addr) (hiByte addr) = _ from congrArg Instr.bitAbs (joinBytes_hi_lo addr)⟩
theorem andAbs (addr : Addr) : Statement (.andAbs addr) :=
  fun _ => ⟨show _ = instrLength 0x2D from rfl,
    show decodeOp 0x2D (loByte addr) (hiByte addr) = _ from congrArg Instr.andAbs (joinBytes_hi_lo addr)⟩
theorem rolAbs (addr : Addr) : Statement (.rolAbs addr) :=
  fun _ => ⟨show _ = instrLength 0x2E from rfl,
    show decodeOp 0x2E (loByte addr) (hiByte addr) = _ from congrArg Instr.rolAbs (joinBytes_hi_lo addr)⟩
theorem rlaAbs (addr : Addr) : Statement (.rlaAbs addr) :=
  fun _ => ⟨show _ = instrLength 0x2F from rfl,
    show decodeOp 0x2F (loByte addr) (hiByte addr) = _ from congrArg Instr.rlaAbs (joinBytes_hi_lo addr)⟩
theorem bmi (off : Int) : Statement (.bmi off) :=
  fun h => ⟨show _ = instrLength 0x30 from rfl,
    show decodeOp 0x30 (offsetByte off) 0 = _ from congrArg Instr.bmi (signedOffset_offsetByte off h)⟩
theorem andIndY (zp : Byte) : Statement (.andIndY zp) :=
  fun _ => ⟨show _ = instrLength 0x31 from rfl,
    show decodeOp 0x31 zp 0 = _ from rfl⟩
theorem jam32 : Statement .jam32 :=
  fun _ => ⟨show _ = instrLength 0x32 from rfl,
    show decodeOp 0x32 0 0 = _ from rfl⟩
theorem rlaIndY (zp : Byte) : Statement (.rlaIndY zp) :=
  fun _ => ⟨show _ = instrLength 0x33 from rfl,
    show decodeOp 0x33 zp 0 = _ from rfl⟩
theorem nopZpX34 (zp : Byte) : Statement (.nopZpX34 zp) :=
  fun _ => ⟨show _ = instrLength 0x34 from rfl,
    show decodeOp 0x34 zp 0 = _ from rfl⟩
theorem andZpX (zp : Byte) : Statement (.andZpX zp) :=
  fun _ => ⟨show _ = instrLength 0x35 from rfl,
    show decodeOp 0x35 zp 0 = _ from rfl⟩
theorem rolZpX (zp : Byte) : Statement (.rolZpX zp) :=
  fun _ => ⟨show _ = instrLength 0x36 from rfl,
    show decodeOp 0x36 zp 0 = _ from rfl⟩
theorem rlaZpX (zp : Byte) : Statement (.rlaZpX zp) :=
  fun _ => ⟨show _ = instrLength 0x37 from rfl,
    show decodeOp 0x37 zp 0 = _ from rfl⟩
theorem sec : Statement .sec :=
  fun _ => ⟨show _ = instrLength 0x38 from rfl,
    show decodeOp 0x38 0 0 = _ from rfl⟩
theorem andAbsY (addr : Addr) : Statement (.andAbsY addr) :=
  fun _ => ⟨show _ = instrLength 0x39 from rfl,
    show decodeOp 0x39 (loByte addr) (hiByte addr) = _ from congrArg Instr.andAbsY (joinBytes_hi_lo addr)⟩
theorem nop3A : Statement .nop3A :=
  fun _ => ⟨show _ = instrLength 0x3A from rfl,
    show decodeOp 0x3A 0 0 = _ from rfl⟩
theorem rlaAbsY (addr : Addr) : Statement (.rlaAbsY addr) :=
  fun _ => ⟨show _ = instrLength 0x3B from rfl,
    show decodeOp 0x3B (loByte addr) (hiByte addr) = _ from congrArg Instr.rlaAbsY (joinBytes_hi_lo addr)⟩
theorem nopAbsX3C (addr : Addr) : Statement (.nopAbsX3C addr) :=
  fun _ => ⟨show _ = instrLength 0x3C from rfl,
    show decodeOp 0x3C (loByte addr) (hiByte addr) = _ from congrArg Instr.nopAbsX3C (joinBytes_hi_lo addr)⟩
theorem andAbsX (addr : Addr) : Statement (.andAbsX addr) :=
  fun _ => ⟨show _ = instrLength 0x3D from rfl,
    show decodeOp 0x3D (loByte addr) (hiByte addr) = _ from congrArg Instr.andAbsX (joinBytes_hi_lo addr)⟩
theorem rolAbsX (addr : Addr) : Statement (.rolAbsX addr) :=
  fun _ => ⟨show _ = instrLength 0x3E from rfl,
    show decodeOp 0x3E (loByte addr) (hiByte addr) = _ from congrArg Instr.rolAbsX (joinBytes_hi_lo addr)⟩
theorem rlaAbsX (addr : Addr) : Statement (.rlaAbsX addr) :=
  fun _ => ⟨show _ = instrLength 0x3F from rfl,
    show decodeOp 0x3F (loByte addr) (hiByte addr) = _ from congrArg Instr.rlaAbsX (joinBytes_hi_lo addr)⟩
theorem rti : Statement .rti :=
  fun _ => ⟨show _ = instrLength 0x40 from rfl,
    show decodeOp 0x40 0 0 = _ from rfl⟩
theorem eorIndX (zp : Byte) : Statement (.eorIndX zp) :=
  fun _ => ⟨show _ = instrLength 0x41 from rfl,
    show decodeOp 0x41 zp 0 = _ from rfl⟩
theorem jam42 : Statement .jam42 :=
  fun _ => ⟨show _ = instrLength 0x42 from rfl,
    show decodeOp 0x42 0 0 = _ from rfl⟩
theorem sreIndX (zp : Byte) : Statement (.sreIndX zp) :=
  fun _ => ⟨show _ = instrLength 0x43 from rfl,
    show decodeOp 0x43 zp 0 = _ from rfl⟩
theorem nopZp44 (zp : Byte) : Statement (.nopZp44 zp) :=
  fun _ => ⟨show _ = instrLength 0x44 from rfl,
    show decodeOp 0x44 zp 0 = _ from rfl⟩
theorem eorZp (zp : Byte) : Statement (.eorZp zp) :=
  fun _ => ⟨show _ = instrLength 0x45 from rfl,
    show decodeOp 0x45 zp 0 = _ from rfl⟩
theorem lsrZp (zp : Byte) : Statement (.lsrZp zp) :=
  fun _ => ⟨show _ = instrLength 0x46 from rfl,
    show decodeOp 0x46 zp 0 = _ from rfl⟩
theorem sreZp (zp : Byte) : Statement (.sreZp zp) :=
  fun _ => ⟨show _ = instrLength 0x47 from rfl,
    show decodeOp 0x47 zp 0 = _ from rfl⟩
theorem pha : Statement .pha :=
  fun _ => ⟨show _ = instrLength 0x48 from rfl,
    show decodeOp 0x48 0 0 = _ from rfl⟩
theorem eorImm (v : Byte) : Statement (.eorImm v) :=
  fun _ => ⟨show _ = instrLength 0x49 from rfl,
    show decodeOp 0x49 v 0 = _ from rfl⟩
theorem lsrAcc : Statement .lsrAcc :=
  fun _ => ⟨show _ = instrLength 0x4A from rfl,
    show decodeOp 0x4A 0 0 = _ from rfl⟩
theorem alr4B : Statement .alr4B :=
  fun _ => ⟨show _ = instrLength 0x4B from rfl,
    show decodeOp 0x4B 0 0 = _ from rfl⟩
theorem jmpAbs (addr : Addr) : Statement (.jmpAbs addr) :=
  fun _ => ⟨show _ = instrLength 0x4C from rfl,
    show decodeOp 0x4C (loByte addr) (hiByte addr) = _ from congrArg Instr.jmpAbs (joinBytes_hi_lo addr)⟩
theorem eorAbs (addr : Addr) : Statement (.eorAbs addr) :=
  fun _ => ⟨show _ = instrLength 0x4D from rfl,
    show decodeOp 0x4D (loByte addr) (hiByte addr) = _ from congrArg Instr.eorAbs (joinBytes_hi_lo addr)⟩
theorem lsrAbs (addr : Addr) : Statement (.lsrAbs addr) :=
  fun _ => ⟨show _ = instrLength 0x4E from rfl,
    show decodeOp 0x4E (loByte addr) (hiByte addr) = _ from congrArg Instr.lsrAbs (joinBytes_hi_lo addr)⟩
theorem sreAbs (addr : Addr) : Statement (.sreAbs addr) :=
  fun _ => ⟨show _ = instrLength 0x4F from rfl,
    show decodeOp 0x4F (loByte addr) (hiByte addr) = _ from congrArg Instr.sreAbs (joinBytes_hi_lo addr)⟩
theorem bvc (off : Int) : Statement (.bvc off) :=
  fun h => ⟨show _ = instrLength 0x50 from rfl,
    show decodeOp 0x50 (offsetByte off) 0 = _ from congrArg Instr.bvc (signedOffset_offsetByte off h)⟩
theorem eorIndY (zp : Byte) : Statement (.eorIndY zp) :=
  fun _ => ⟨show _ = instrLength 0x51 from rfl,
    show decodeOp 0x51 zp 0 = _ from rfl⟩
theorem jam52 : Statement .jam52 :=
  fun _ => ⟨show _ = instrLength 0x52 from rfl,
    show decodeOp 0x52 0 0 = _ from rfl⟩
theorem sreIndY (zp : Byte) : Statement (.sreIndY zp) :=
  fun _ => ⟨show _ = instrLength 0x53 from rfl,
    show decodeOp 0x53 zp 0 = _ from rfl⟩
theorem nopZpX54 (zp : Byte) : Statement (.nopZpX54 zp) :=
  fun _ => ⟨show _ = instrLength 0x54 from rfl,
    show decodeOp 0x54 zp 0 = _ from rfl⟩
theorem eorZpX (zp : Byte) : Statement (.eorZpX zp) :=
  fun _ => ⟨show _ = instrLength 0x55 from rfl,
    show decodeOp 0x55 zp 0 = _ from rfl⟩
theorem lsrZpX (zp : Byte) : Statement (.lsrZpX zp) :=
  fun _ => ⟨show _ = instrLength 0x56 from rfl,
    show decodeOp 0x56 zp 0 = _ from rfl⟩
theorem sreZpX (zp : Byte) : Statement (.sreZpX zp) :=
  fun _ => ⟨show _ = instrLength 0x57 from rfl,
    show decodeOp 0x57 zp 0 = _ from rfl⟩
theorem cli : Statement .cli :=
  fun _ => ⟨show _ = instrLength 0x58 from rfl,
    show decodeOp 0x58 0 0 = _ from rfl⟩
theorem eorAbsY (addr : Addr) : Statement (.eorAbsY addr) :=
  fun _ => ⟨show _ = instrLength 0x59 from rfl,
    show decodeOp 0x59 (loByte addr) (hiByte addr) = _ from congrArg Instr.eorAbsY (joinBytes_hi_lo addr)⟩
theorem nop5A : Statement .nop5A :=
  fun _ => ⟨show _ = instrLength 0x5A from rfl,
    show decodeOp 0x5A 0 0 = _ from rfl⟩
theorem sreAbsY (addr : Addr) : Statement (.sreAbsY addr) :=
  fun _ => ⟨show _ = instrLength 0x5B from rfl,
    show decodeOp 0x5B (loByte addr) (hiByte addr) = _ from congrArg Instr.sreAbsY (joinBytes_hi_lo addr)⟩
theorem nopAbsX5C (addr : Addr) : Statement (.nopAbsX5C addr) :=
  fun _ => ⟨show _ = instrLength 0x5C from rfl,
    show decodeOp 0x5C (loByte addr) (hiByte addr) = _ from congrArg Instr.nopAbsX5C (joinBytes_hi_lo addr)⟩
theorem eorAbsX (addr : Addr) : Statement (.eorAbsX addr) :=
  fun _ => ⟨show _ = instrLength 0x5D from rfl,
    show decodeOp 0x5D (loByte addr) (hiByte addr) = _ from congrArg Instr.eorAbsX (joinBytes_hi_lo addr)⟩
theorem lsrAbsX (addr : Addr) : Statement (.lsrAbsX addr) :=
  fun _ => ⟨show _ = instrLength 0x5E from rfl,
    show decodeOp 0x5E (loByte addr) (hiByte addr) = _ from congrArg Instr.lsrAbsX (joinBytes_hi_lo addr)⟩
theorem sreAbsX (addr : Addr) : Statement (.sreAbsX addr) :=
  fun _ => ⟨show _ = instrLength 0x5F from rfl,
    show decodeOp 0x5F (loByte addr) (hiByte addr) = _ from congrArg Instr.sreAbsX (joinBytes_hi_lo addr)⟩
theorem rts : Statement .rts :=
  fun _ => ⟨show _ = instrLength 0x60 from rfl,
    show decodeOp 0x60 0 0 = _ from rfl⟩
theorem adcIndX (zp : Byte) : Statement (.adcIndX zp) :=
  fun _ => ⟨show _ = instrLength 0x61 from rfl,
    show decodeOp 0x61 zp 0 = _ from rfl⟩
theorem jam62 : Statement .jam62 :=
  fun _ => ⟨show _ = instrLength 0x62 from rfl,
    show decodeOp 0x62 0 0 = _ from rfl⟩
theorem rraIndX (zp : Byte) : Statement (.rraIndX zp) :=
  fun _ => ⟨show _ = instrLength 0x63 from rfl,
    show decodeOp 0x63 zp 0 = _ from rfl⟩
theorem nopZp64 (zp : Byte) : Statement (.nopZp64 zp) :=
  fun _ => ⟨show _ = instrLength 0x64 from rfl,
    show decodeOp 0x64 zp 0 = _ from rfl⟩
theorem adcZp (zp : Byte) : Statement (.adcZp zp) :=
  fun _ => ⟨show _ = instrLength 0x65 from rfl,
    show decodeOp 0x65 zp 0 = _ from rfl⟩
theorem rorZp (zp : Byte) : Statement (.rorZp zp) :=
  fun _ => ⟨show _ = instrLength 0x66 from rfl,
    show decodeOp 0x66 zp 0 = _ from rfl⟩
theorem rraZp (zp : Byte) : Statement (.rraZp zp) :=
  fun _ => ⟨show _ = instrLength 0x67 from rfl,
    show decodeOp 0x67 zp 0 = _ from rfl⟩
theorem pla : Statement .pla :=
  fun _ => ⟨show _ = instrLength 0x68 from rfl,
    show decodeOp 0x68 0 0 = _ from rfl⟩
theorem adcImm (v : Byte) : Statement (.adcImm v) :=
  fun _ => ⟨show _ = instrLength 0x69 from rfl,
    show decodeOp 0x69 v 0 = _ from rfl⟩
theorem rorAcc : Statement .rorAcc :=
  fun _ => ⟨show _ = instrLength 0x6A from rfl,
    show decodeOp 0x6A 0 0 = _ from rfl⟩
theorem arr6B : Statement .arr6B :=
  fun _ => ⟨show _ = instrLength 0x6B from rfl,
    show decodeOp 0x6B 0 0 = _ from rfl⟩
theorem jmpInd (ptr : Addr) : Statement (.jmpInd ptr) :=
  fun _ => ⟨show _ = instrLength 0x6C from rfl,
    show decodeOp 0x6C (loByte ptr) (hiByte ptr) = _ from congrArg Instr.jmpInd (joinBytes_hi_lo ptr)⟩
theorem adcAbs (addr : Addr) : Statement (.adcAbs addr) :=
  fun _ => ⟨show _ = instrLength 0x6D from rfl,
    show decodeOp 0x6D (loByte addr) (hiByte addr) = _ from congrArg Instr.adcAbs (joinBytes_hi_lo addr)⟩
theorem rorAbs (addr : Addr) : Statement (.rorAbs addr) :=
  fun _ => ⟨show _ = instrLength 0x6E from rfl,
    show decodeOp 0x6E (loByte addr) (hiByte addr) = _ from congrArg Instr.rorAbs (joinBytes_hi_lo addr)⟩
theorem rraAbs (addr : Addr) : Statement (.rraAbs addr) :=
  fun _ => ⟨show _ = instrLength 0x6F from rfl,
    show decodeOp 0x6F (loByte addr) (hiByte addr) = _ from congrArg Instr.rraAbs (joinBytes_hi_lo addr)⟩
theorem bvs (off : Int) : Statement (.bvs off) :=
  fun h => ⟨show _ = instrLength 0x70 from rfl,
    show decodeOp 0x70 (offsetByte off) 0 = _ from congrArg Instr.bvs (signedOffset_offsetByte off h)⟩
theorem adcIndY (zp : Byte) : Statement (.adcIndY zp) :=
  fun _ => ⟨show _ = instrLength 0x71 from rfl,
    show decodeOp 0x71 zp 0 = _ from rfl⟩
theorem jam72 : Statement .jam72 :=
  fun _ => ⟨show _ = instrLength 0x72 from rfl,
    show decodeOp 0x72 0 0 = _ from rfl⟩
theorem rraIndY (zp : Byte) : Statement (.rraIndY zp) :=
  fun _ => ⟨show _ = instrLength 0x73 from rfl,
    show decodeOp 0x73 zp 0 = _ from rfl⟩
theorem nopZpX74 (zp : Byte) : Statement (.nopZpX74 zp) :=
  fun _ => ⟨show _ = instrLength 0x74 from rfl,
    show decodeOp 0x74 zp 0 = _ from rfl⟩
theorem adcZpX (zp : Byte) : Statement (.adcZpX zp) :=
  fun _ => ⟨show _ = instrLength 0x75 from rfl,
    show decodeOp 0x75 zp 0 = _ from rfl⟩
theorem rorZpX (zp : Byte) : Statement (.rorZpX zp) :=
  fun _ => ⟨show _ = instrLength 0x76 from rfl,
    show decodeOp 0x76 zp 0 = _ from rfl⟩
theorem rraZpX (zp : Byte) : Statement (.rraZpX zp) :=
  fun _ => ⟨show _ = instrLength 0x77 from rfl,
    show decodeOp 0x77 zp 0 = _ from rfl⟩
theorem sei : Statement .sei :=
  fun _ => ⟨show _ = instrLength 0x78 from rfl,
    show decodeOp 0x78 0 0 = _ from rfl⟩
theorem adcAbsY (addr : Addr) : Statement (.adcAbsY addr) :=
  fun _ => ⟨show _ = instrLength 0x79 from rfl,
    show decodeOp 0x79 (loByte addr) (hiByte addr) = _ from congrArg Instr.adcAbsY (joinBytes_hi_lo addr)⟩
theorem nop7A : Statement .nop7A :=
  fun _ => ⟨show _ = instrLength 0x7A from rfl,
    show decodeOp 0x7A 0 0 = _ from rfl⟩
theorem rraAbsY (addr : Addr) : Statement (.rraAbsY addr) :=
  fun _ => ⟨show _ = instrLength 0x7B from rfl,
    show decodeOp 0x7B (loByte addr) (hiByte addr) = _ from congrArg Instr.rraAbsY (joinBytes_hi_lo addr)⟩
theorem nopAbsX7C (addr : Addr) : Statement (.nopAbsX7C addr) :=
  fun _ => ⟨show _ = instrLength 0x7C from rfl,
    show decodeOp 0x7C (loByte addr) (hiByte addr) = _ from congrArg Instr.nopAbsX7C (joinBytes_hi_lo addr)⟩
theorem adcAbsX (addr : Addr) : Statement (.adcAbsX addr) :=
  fun _ => ⟨show _ = instrLength 0x7D from rfl,
    show decodeOp 0x7D (loByte addr) (hiByte addr) = _ from congrArg Instr.adcAbsX (joinBytes_hi_lo addr)⟩
theorem rorAbsX (addr : Addr) : Statement (.rorAbsX addr) :=
  fun _ => ⟨show _ = instrLength 0x7E from rfl,
    show decodeOp 0x7E (loByte addr) (hiByte addr) = _ from congrArg Instr.rorAbsX (joinBytes_hi_lo addr)⟩
theorem rraAbsX (addr : Addr) : Statement (.rraAbsX addr) :=
  fun _ => ⟨show _ = instrLength 0x7F from rfl,
    show decodeOp 0x7F (loByte addr) (hiByte addr) = _ from congrArg Instr.rraAbsX (joinBytes_hi_lo addr)⟩
theorem nopImm80 (v : Byte) : Statement (.nopImm80 v) :=
  fun _ => ⟨show _ = instrLength 0x80 from rfl,
    show decodeOp 0x80 v 0 = _ from rfl⟩
theorem staIndX (zp : Byte) : Statement (.staIndX zp) :=
  fun _ => ⟨show _ = instrLength 0x81 from rfl,
    show decodeOp 0x81 zp 0 = _ from rfl⟩
theorem nopImm82 (v : Byte) : Statement (.nopImm82 v) :=
  fun _ => ⟨show _ = instrLength 0x82 from rfl,
    show decodeOp 0x82 v 0 = _ from rfl⟩
theorem saxIndX (zp : Byte) : Statement (.saxIndX zp) :=
  fun _ => ⟨show _ = instrLength 0x83 from rfl,
    show decodeOp 0x83 zp 0 = _ from rfl⟩
theorem styZp (zp : Byte) : Statement (.styZp zp) :=
  fun _ => ⟨show _ = instrLength 0x84 from rfl,
    show decodeOp 0x84 zp 0 = _ from rfl⟩
theorem staZp (zp : Byte) : Statement (.staZp zp) :=
  fun _ => ⟨show _ = instrLength 0x85 from rfl,
    show decodeOp 0x85 zp 0 = _ from rfl⟩
theorem stxZp (zp : Byte) : Statement (.stxZp zp) :=
  fun _ => ⟨show _ = instrLength 0x86 from rfl,
    show decodeOp 0x86 zp 0 = _ from rfl⟩
theorem saxZp (zp : Byte) : Statement (.saxZp zp) :=
  fun _ => ⟨show _ = instrLength 0x87 from rfl,
    show decodeOp 0x87 zp 0 = _ from rfl⟩
theorem dey : Statement .dey :=
  fun _ => ⟨show _ = instrLength 0x88 from rfl,
    show decodeOp 0x88 0 0 = _ from rfl⟩
theorem nopImm89 (v : Byte) : Statement (.nopImm89 v) :=
  fun _ => ⟨show _ = instrLength 0x89 from rfl,
    show decodeOp 0x89 v 0 = _ from rfl⟩
theorem txa : Statement .txa :=
  fun _ => ⟨show _ = instrLength 0x8A from rfl,
    show decodeOp 0x8A 0 0 = _ from rfl⟩
theorem ane8B : Statement .ane8B :=
  fun _ => ⟨show _ = instrLength 0x8B from rfl,
    show decodeOp 0x8B 0 0 = _ from rfl⟩
theorem styAbs (addr : Addr) : Statement (.styAbs addr) :=
  fun _ => ⟨show _ = instrLength 0x8C from rfl,
    show decodeOp 0x8C (loByte addr) (hiByte addr) = _ from congrArg Instr.styAbs (joinBytes_hi_lo addr)⟩
theorem staAbs (addr : Addr) : Statement (.staAbs addr) :=
  fun _ => ⟨show _ = instrLength 0x8D from rfl,
    show decodeOp 0x8D (loByte addr) (hiByte addr) = _ from congrArg Instr.staAbs (joinBytes_hi_lo addr)⟩
theorem stxAbs (addr : Addr) : Statement (.stxAbs addr) :=
  fun _ => ⟨show _ = instrLength 0x8E from rfl,
    show decodeOp 0x8E (loByte addr) (hiByte addr) = _ from congrArg Instr.stxAbs (joinBytes_hi_lo addr)⟩
theorem saxAbs (addr : Addr) : Statement (.saxAbs addr) :=
  fun _ => ⟨show _ = instrLength 0x8F from rfl,
    show decodeOp 0x8F (loByte addr) (hiByte addr) = _ from congrArg Instr.saxAbs (joinBytes_hi_lo addr)⟩
theorem bcc (off : Int) : Statement (.bcc off) :=
  fun h => ⟨show _ = instrLength 0x90 from rfl,
    show decodeOp 0x90 (offsetByte off) 0 = _ from congrArg Instr.bcc (signedOffset_offsetByte off h)⟩
theorem staIndY (zp : Byte) : Statement (.staIndY zp) :=
  fun _ => ⟨show _ = instrLength 0x91 from rfl,
    show decodeOp 0x91 zp 0 = _ from rfl⟩
theorem jam92 : Statement .jam92 :=
  fun _ => ⟨show _ = instrLength 0x92 from rfl,
    show decodeOp 0x92 0 0 = _ from rfl⟩
theorem sha93 : Statement .sha93 :=
  fun _ => ⟨show _ = instrLength 0x93 from rfl,
    show decodeOp 0x93 0 0 = _ from rfl⟩
theorem styZpX (zp : Byte) : Statement (.styZpX zp) :=
  fun _ => ⟨show _ = instrLength 0x94 from rfl,
    show decodeOp 0x94 zp 0 = _ from rfl⟩
theorem staZpX (zp : Byte) : Statement (.staZpX zp) :=
  fun _ => ⟨show _ = instrLength 0x95 from rfl,
    show decodeOp 0x95 zp 0 = _ from rfl⟩
theorem stxZpY (zp : Byte) : Statement (.stxZpY zp) :=
  fun _ => ⟨show _ = instrLength 0x96 from rfl,
    show decodeOp 0x96 zp 0 = _ from rfl⟩
theorem saxZpY (zp : Byte) : Statement (.saxZpY zp) :=
  fun _ => ⟨show _ = instrLength 0x97 from rfl,
    show decodeOp 0x97 zp 0 = _ from rfl⟩
theorem tya : Statement .tya :=
  fun _ => ⟨show _ = instrLength 0x98 from rfl,
    show decodeOp 0x98 0 0 = _ from rfl⟩
theorem staAbsY (addr : Addr) : Statement (.staAbsY addr) :=
  fun _ => ⟨show _ = instrLength 0x99 from rfl,
    show decodeOp 0x99 (loByte addr) (hiByte addr) = _ from congrArg Instr.staAbsY (joinBytes_hi_lo addr)⟩
theorem txs : Statement .txs :=
  fun _ => ⟨show _ = instrLength 0x9A from rfl,
    show decodeOp 0x9A 0 0 = _ from rfl⟩
theorem tas9B : Statement .tas9B :=
  fun _ => ⟨show _ = instrLength 0x9B from rfl,
    show decodeOp 0x9B 0 0 = _ from rfl⟩
theorem shy9C : Statement .shy9C :=
  fun _ => ⟨show _ = instrLength 0x9C from rfl,
    show decodeOp 0x9C 0 0 = _ from rfl⟩
theorem staAbsX (addr : Addr) : Statement (.staAbsX addr) :=
  fun _ => ⟨show _ = instrLength 0x9D from rfl,
    show decodeOp 0x9D (loByte addr) (hiByte addr) = _ from congrArg Instr.staAbsX (joinBytes_hi_lo addr)⟩
theorem shx9E : Statement .shx9E :=
  fun _ => ⟨show _ = instrLength 0x9E from rfl,
    show decodeOp 0x9E 0 0 = _ from rfl⟩
theorem sha9F : Statement .sha9F :=
  fun _ => ⟨show _ = instrLength 0x9F from rfl,
    show decodeOp 0x9F 0 0 = _ from rfl⟩
theorem ldyImm (v : Byte) : Statement (.ldyImm v) :=
  fun _ => ⟨show _ = instrLength 0xA0 from rfl,
    show decodeOp 0xA0 v 0 = _ from rfl⟩
theorem ldaIndX (zp : Byte) : Statement (.ldaIndX zp) :=
  fun _ => ⟨show _ = instrLength 0xA1 from rfl,
    show decodeOp 0xA1 zp 0 = _ from rfl⟩
theorem ldxImm (v : Byte) : Statement (.ldxImm v) :=
  fun _ => ⟨show _ = instrLength 0xA2 from rfl,
    show decodeOp 0xA2 v 0 = _ from rfl⟩
theorem laxIndX (zp : Byte) : Statement (.laxIndX zp) :=
  fun _ => ⟨show _ = instrLength 0xA3 from rfl,
    show decodeOp 0xA3 zp 0 = _ from rfl⟩
theorem ldyZp (zp : Byte) : Statement (.ldyZp zp) :=
  fun _ => ⟨show _ = instrLength 0xA4 from rfl,
    show decodeOp 0xA4 zp 0 = _ from rfl⟩
theorem ldaZp (zp : Byte) : Statement (.ldaZp zp) :=
  fun _ => ⟨show _ = instrLength 0xA5 from rfl,
    show decodeOp 0xA5 zp 0 = _ from rfl⟩
theorem ldxZp (zp : Byte) : Statement (.ldxZp zp) :=
  fun _ => ⟨show _ = instrLength 0xA6 from rfl,
    show decodeOp 0xA6 zp 0 = _ from rfl⟩
theorem laxZp (zp : Byte) : Statement (.laxZp zp) :=
  fun _ => ⟨show _ = instrLength 0xA7 from rfl,
    show decodeOp 0xA7 zp 0 = _ from rfl⟩
theorem tay : Statement .tay :=
  fun _ => ⟨show _ = instrLength 0xA8 from rfl,
    show decodeOp 0xA8 0 0 = _ from rfl⟩
theorem ldaImm (v : Byte) : Statement (.ldaImm v) :=
  fun _ => ⟨show _ = instrLength 0xA9 from rfl,
    show decodeOp 0xA9 v 0 = _ from rfl⟩
theorem tax : Statement .tax :=
  fun _ => ⟨show _ = instrLength 0xAA from rfl,
    show decodeOp 0xAA 0 0 = _ from rfl⟩
theorem lxaAB : Statement .lxaAB :=
  fun _ => ⟨show _ = instrLength 0xAB from rfl,
    show decodeOp 0xAB 0 0 = _ from rfl⟩
theorem ldyAbs (addr : Addr) : Statement (.ldyAbs addr) :=
  fun _ => ⟨show _ = instrLength 0xAC from rfl,
    show decodeOp 0xAC (loByte addr) (hiByte addr) = _ from congrArg Instr.ldyAbs (joinBytes_hi_lo addr)⟩
theorem ldaAbs (addr : Addr) : Statement (.ldaAbs addr) :=
  fun _ => ⟨show _ = instrLength 0xAD from rfl,
    show decodeOp 0xAD (loByte addr) (hiByte addr) = _ from congrArg Instr.ldaAbs (joinBytes_hi_lo addr)⟩
theorem ldxAbs (addr : Addr) : Statement (.ldxAbs addr) :=
  fun _ => ⟨show _ = instrLength 0xAE from rfl,
    show decodeOp 0xAE (loByte addr) (hiByte addr) = _ from congrArg Instr.ldxAbs (joinBytes_hi_lo addr)⟩
theorem laxAbs (addr : Addr) : Statement (.laxAbs addr) :=
  fun _ => ⟨show _ = instrLength 0xAF from rfl,
    show decodeOp 0xAF (loByte addr) (hiByte addr) = _ from congrArg Instr.laxAbs (joinBytes_hi_lo addr)⟩
theorem bcs (off : Int) : Statement (.bcs off) :=
  fun h => ⟨show _ = instrLength 0xB0 from rfl,
    show decodeOp 0xB0 (offsetByte off) 0 = _ from congrArg Instr.bcs (signedOffset_offsetByte off h)⟩
theorem ldaIndY (zp : Byte) : Statement (.ldaIndY zp) :=
  fun _ => ⟨show _ = instrLength 0xB1 from rfl,
    show decodeOp 0xB1 zp 0 = _ from rfl⟩
theorem jamB2 : Statement .jamB2 :=
  fun _ => ⟨show _ = instrLength 0xB2 from rfl,
    show decodeOp 0xB2 0 0 = _ from rfl⟩
theorem laxIndY (zp : Byte) : Statement (.laxIndY zp) :=
  fun _ => ⟨show _ = instrLength 0xB3 from rfl,
    show decodeOp 0xB3 zp 0 = _ from rfl⟩
theorem ldyZpX (zp : Byte) : Statement (.ldyZpX zp) :=
  fun _ => ⟨show _ = instrLength 0xB4 from rfl,
    show decodeOp 0xB4 zp 0 = _ from rfl⟩
theorem ldaZpX (zp : Byte) : Statement (.ldaZpX zp) :=
  fun _ => ⟨show _ = instrLength 0xB5 from rfl,
    show decodeOp 0xB5 zp 0 = _ from rfl⟩
theorem ldxZpY (zp : Byte) : Statement (.ldxZpY zp) :=
  fun _ => ⟨show _ = instrLength 0xB6 from rfl,
    show decodeOp 0xB6 zp 0 = _ from rfl⟩
theorem laxZpY (zp : Byte) : Statement (.laxZpY zp) :=
  fun _ => ⟨show _ = instrLength 0xB7 from rfl,
    show decodeOp 0xB7 zp 0 = _ from rfl⟩
theorem clv : Statement .clv :=
  fun _ => ⟨show _ = instrLength 0xB8 from rfl,
    show decodeOp 0xB8 0 0 = _ from rfl⟩
theorem ldaAbsY (addr : Addr) : Statement (.ldaAbsY addr) :=
  fun _ => ⟨show _ = instrLength 0xB9 from rfl,
    show decodeOp 0xB9 (loByte addr) (hiByte addr) = _ from congrArg Instr.ldaAbsY (joinBytes_hi_lo addr)⟩
theorem tsx : Statement .tsx :=
  fun _ => ⟨show _ = instrLength 0xBA from rfl,
    show decodeOp 0xBA 0 0 = _ from rfl⟩
theorem lasBB : Statement .lasBB :=
  fun _ => ⟨show _ = instrLength 0xBB from rfl,
    show decodeOp 0xBB 0 0 = _ from rfl⟩
theorem ldyAbsX (addr : Addr) : Statement (.ldyAbsX addr) :=
  fun _ => ⟨show _ = instrLength 0xBC from rfl,
    show decodeOp 0xBC (loByte addr) (hiByte addr) = _ from congrArg Instr.ldyAbsX (joinBytes_hi_lo addr)⟩
theorem ldaAbsX (addr : Addr) : Statement (.ldaAbsX addr) :=
  fun _ => ⟨show _ = instrLength 0xBD from rfl,
    show decodeOp 0xBD (loByte addr) (hiByte addr) = _ from congrArg Instr.ldaAbsX (joinBytes_hi_lo addr)⟩
theorem ldxAbsY (addr : Addr) : Statement (.ldxAbsY addr) :=
  fun _ => ⟨show _ = instrLength 0xBE from rfl,
    show decodeOp 0xBE (loByte addr) (hiByte addr) = _ from congrArg Instr.ldxAbsY (joinBytes_hi_lo addr)⟩
theorem laxAbsY (addr : Addr) : Statement (.laxAbsY addr) :=
  fun _ => ⟨show _ = instrLength 0xBF from rfl,
    show decodeOp 0xBF (loByte addr) (hiByte addr) = _ from congrArg Instr.laxAbsY (joinBytes_hi_lo addr)⟩
theorem cpyImm (v : Byte) : Statement (.cpyImm v) :=
  fun _ => ⟨show _ = instrLength 0xC0 from rfl,
    show decodeOp 0xC0 v 0 = _ from rfl⟩
theorem cmpIndX (zp : Byte) : Statement (.cmpIndX zp) :=
  fun _ => ⟨show _ = instrLength 0xC1 from rfl,
    show decodeOp 0xC1 zp 0 = _ from rfl⟩
theorem nopImmC2 (v : Byte) : Statement (.nopImmC2 v) :=
  fun _ => ⟨show _ = instrLength 0xC2 from rfl,
    show decodeOp 0xC2 v 0 = _ from rfl⟩
theorem dcpIndX (zp : Byte) : Statement (.dcpIndX zp) :=
  fun _ => ⟨show _ = instrLength 0xC3 from rfl,
    show decodeOp 0xC3 zp 0 = _ from rfl⟩
theorem cpyZp (zp : Byte) : Statement (.cpyZp zp) :=
  fun _ => ⟨show _ = instrLength 0xC4 from rfl,
    show decodeOp 0xC4 zp 0 = _ from rfl⟩
theorem cmpZp (zp : Byte) : Statement (.cmpZp zp) :=
  fun _ => ⟨show _ = instrLength 0xC5 from rfl,
    show decodeOp 0xC5 zp 0 = _ from rfl⟩
theorem decZp (zp : Byte) : Statement (.decZp zp) :=
  fun _ => ⟨show _ = instrLength 0xC6 from rfl,
    show decodeOp 0xC6 zp 0 = _ from rfl⟩
theorem dcpZp (zp : Byte) : Statement (.dcpZp zp) :=
  fun _ => ⟨show _ = instrLength 0xC7 from rfl,
    show decodeOp 0xC7 zp 0 = _ from rfl⟩
theorem iny : Statement .iny :=
  fun _ => ⟨show _ = instrLength 0xC8 from rfl,
    show decodeOp 0xC8 0 0 = _ from rfl⟩
theorem cmpImm (v : Byte) : Statement (.cmpImm v) :=
  fun _ => ⟨show _ = instrLength 0xC9 from rfl,
    show decodeOp 0xC9 v 0 = _ from rfl⟩
theorem dex : Statement .dex :=
  fun _ => ⟨show _ = instrLength 0xCA from rfl,
    show decodeOp 0xCA 0 0 = _ from rfl⟩
theorem sbxCB : Statement .sbxCB :=
  fun _ => ⟨show _ = instrLength 0xCB from rfl,
    show decodeOp 0xCB 0 0 = _ from rfl⟩
theorem cpyAbs (addr : Addr) : Statement (.cpyAbs addr) :=
  fun _ => ⟨show _ = instrLength 0xCC from rfl,
    show decodeOp 0xCC (loByte addr) (hiByte addr) = _ from congrArg Instr.cpyAbs (joinBytes_hi_lo addr)⟩
theorem cmpAbs (addr : Addr) : Statement (.cmpAbs addr) :=
  fun _ => ⟨show _ = instrLength 0xCD from rfl,
    show decodeOp 0xCD (loByte addr) (hiByte addr) = _ from congrArg Instr.cmpAbs (joinBytes_hi_lo addr)⟩
theorem decAbs (addr : Addr) : Statement (.decAbs addr) :=
  fun _ => ⟨show _ = instrLength 0xCE from rfl,
    show decodeOp 0xCE (loByte addr) (hiByte addr) = _ from congrArg Instr.decAbs (joinBytes_hi_lo addr)⟩
theorem dcpAbs (addr : Addr) : Statement (.dcpAbs addr) :=
  fun _ => ⟨show _ = instrLength 0xCF from rfl,
    show decodeOp 0xCF (loByte addr) (hiByte addr) = _ from congrArg Instr.dcpAbs (joinBytes_hi_lo addr)⟩
theorem bne (off : Int) : Statement (.bne off) :=
  fun h => ⟨show _ = instrLength 0xD0 from rfl,
    show decodeOp 0xD0 (offsetByte off) 0 = _ from congrArg Instr.bne (signedOffset_offsetByte off h)⟩
theorem cmpIndY (zp : Byte) : Statement (.cmpIndY zp) :=
  fun _ => ⟨show _ = instrLength 0xD1 from rfl,
    show decodeOp 0xD1 zp 0 = _ from rfl⟩
theorem jamD2 : Statement .jamD2 :=
  fun _ => ⟨show _ = instrLength 0xD2 from rfl,
    show decodeOp 0xD2 0 0 = _ from rfl⟩
theorem dcpIndY (zp : Byte) : Statement (.dcpIndY zp) :=
  fun _ => ⟨show _ = instrLength 0xD3 from rfl,
    show decodeOp 0xD3 zp 0 = _ from rfl⟩
theorem nopZpXD4 (zp : Byte) : Statement (.nopZpXD4 zp) :=
  fun _ => ⟨show _ = instrLength 0xD4 from rfl,
    show decodeOp 0xD4 zp 0 = _ from rfl⟩
theorem cmpZpX (zp : Byte) : Statement (.cmpZpX zp) :=
  fun _ => ⟨show _ = instrLength 0xD5 from rfl,
    show decodeOp 0xD5 zp 0 = _ from rfl⟩
theorem decZpX (zp : Byte) : Statement (.decZpX zp) :=
  fun _ => ⟨show _ = instrLength 0xD6 from rfl,
    show decodeOp 0xD6 zp 0 = _ from rfl⟩
theorem dcpZpX (zp : Byte) : Statement (.dcpZpX zp) :=
  fun _ => ⟨show _ = instrLength 0xD7 from rfl,
    show decodeOp 0xD7 zp 0 = _ from rfl⟩
theorem cld : Statement .cld :=
  fun _ => ⟨show _ = instrLength 0xD8 from rfl,
    show decodeOp 0xD8 0 0 = _ from rfl⟩
theorem cmpAbsY (addr : Addr) : Statement (.cmpAbsY addr) :=
  fun _ => ⟨show _ = instrLength 0xD9 from rfl,
    show decodeOp 0xD9 (loByte addr) (hiByte addr) = _ from congrArg Instr.cmpAbsY (joinBytes_hi_lo addr)⟩
theorem nopDA : Statement .nopDA :=
  fun _ => ⟨show _ = instrLength 0xDA from rfl,
    show decodeOp 0xDA 0 0 = _ from rfl⟩
theorem dcpAbsY (addr : Addr) : Statement (.dcpAbsY addr) :=
  fun _ => ⟨show _ = instrLength 0xDB from rfl,
    show decodeOp 0xDB (loByte addr) (hiByte addr) = _ from congrArg Instr.dcpAbsY (joinBytes_hi_lo addr)⟩
theorem nopAbsXDC (addr : Addr) : Statement (.nopAbsXDC addr) :=
  fun _ => ⟨show _ = instrLength 0xDC from rfl,
    show decodeOp 0xDC (loByte addr) (hiByte addr) = _ from congrArg Instr.nopAbsXDC (joinBytes_hi_lo addr)⟩
theorem cmpAbsX (addr : Addr) : Statement (.cmpAbsX addr) :=
  fun _ => ⟨show _ = instrLength 0xDD from rfl,
    show decodeOp 0xDD (loByte addr) (hiByte addr) = _ from congrArg Instr.cmpAbsX (joinBytes_hi_lo addr)⟩
theorem decAbsX (addr : Addr) : Statement (.decAbsX addr) :=
  fun _ => ⟨show _ = instrLength 0xDE from rfl,
    show decodeOp 0xDE (loByte addr) (hiByte addr) = _ from congrArg Instr.decAbsX (joinBytes_hi_lo addr)⟩
theorem dcpAbsX (addr : Addr) : Statement (.dcpAbsX addr) :=
  fun _ => ⟨show _ = instrLength 0xDF from rfl,
    show decodeOp 0xDF (loByte addr) (hiByte addr) = _ from congrArg Instr.dcpAbsX (joinBytes_hi_lo addr)⟩
theorem cpxImm (v : Byte) : Statement (.cpxImm v) :=
  fun _ => ⟨show _ = instrLength 0xE0 from rfl,
    show decodeOp 0xE0 v 0 = _ from rfl⟩
theorem sbcIndX (zp : Byte) : Statement (.sbcIndX zp) :=
  fun _ => ⟨show _ = instrLength 0xE1 from rfl,
    show decodeOp 0xE1 zp 0 = _ from rfl⟩
theorem nopImmE2 (v : Byte) : Statement (.nopImmE2 v) :=
  fun _ => ⟨show _ = instrLength 0xE2 from rfl,
    show decodeOp 0xE2 v 0 = _ from rfl⟩
theorem isbIndX (zp : Byte) : Statement (.isbIndX zp) :=
  fun _ => ⟨show _ = instrLength 0xE3 from rfl,
    show decodeOp 0xE3 zp 0 = _ from rfl⟩
theorem cpxZp (zp : Byte) : Statement (.cpxZp zp) :=
  fun _ => ⟨show _ = instrLength 0xE4 from rfl,
    show decodeOp 0xE4 zp 0 = _ from rfl⟩
theorem sbcZp (zp : Byte) : Statement (.sbcZp zp) :=
  fun _ => ⟨show _ = instrLength 0xE5 from rfl,
    show decodeOp 0xE5 zp 0 = _ from rfl⟩
theorem incZp (zp : Byte) : Statement (.incZp zp) :=
  fun _ => ⟨show _ = instrLength 0xE6 from rfl,
    show decodeOp 0xE6 zp 0 = _ from rfl⟩
theorem isbZp (zp : Byte) : Statement (.isbZp zp) :=
  fun _ => ⟨show _ = instrLength 0xE7 from rfl,
    show decodeOp 0xE7 zp 0 = _ from rfl⟩
theorem inx : Statement .inx :=
  fun _ => ⟨show _ = instrLength 0xE8 from rfl,
    show decodeOp 0xE8 0 0 = _ from rfl⟩
theorem sbcImm (v : Byte) : Statement (.sbcImm v) :=
  fun _ => ⟨show _ = instrLength 0xE9 from rfl,
    show decodeOp 0xE9 v 0 = _ from rfl⟩
theorem nop : Statement .nop :=
  fun _ => ⟨show _ = instrLength 0xEA from rfl,
    show decodeOp 0xEA 0 0 = _ from rfl⟩
theorem sbcImmEB (v : Byte) : Statement (.sbcImmEB v) :=
  fun _ => ⟨show _ = instrLength 0xEB from rfl,
    show decodeOp 0xEB v 0 = _ from rfl⟩
theorem cpxAbs (addr : Addr) : Statement (.cpxAbs addr) :=
  fun _ => ⟨show _ = instrLength 0xEC from rfl,
    show decodeOp 0xEC (loByte addr) (hiByte addr) = _ from congrArg Instr.cpxAbs (joinBytes_hi_lo addr)⟩
theorem sbcAbs (addr : Addr) : Statement (.sbcAbs addr) :=
  fun _ => ⟨show _ = instrLength 0xED from rfl,
    show decodeOp 0xED (loByte addr) (hiByte addr) = _ from congrArg Instr.sbcAbs (joinBytes_hi_lo addr)⟩
theorem incAbs (addr : Addr) : Statement (.incAbs addr) :=
  fun _ => ⟨show _ = instrLength 0xEE from rfl,
    show decodeOp 0xEE (loByte addr) (hiByte addr) = _ from congrArg Instr.incAbs (joinBytes_hi_lo addr)⟩
theorem isbAbs (addr : Addr) : Statement (.isbAbs addr) :=
  fun _ => ⟨show _ = instrLength 0xEF from rfl,
    show decodeOp 0xEF (loByte addr) (hiByte addr) = _ from congrArg Instr.isbAbs (joinBytes_hi_lo addr)⟩
theorem beq (off : Int) : Statement (.beq off) :=
  fun h => ⟨show _ = instrLength 0xF0 from rfl,
    show decodeOp 0xF0 (offsetByte off) 0 = _ from congrArg Instr.beq (signedOffset_offsetByte off h)⟩
theorem sbcIndY (zp : Byte) : Statement (.sbcIndY zp) :=
  fun _ => ⟨show _ = instrLength 0xF1 from rfl,
    show decodeOp 0xF1 zp 0 = _ from rfl⟩
theorem jamF2 : Statement .jamF2 :=
  fun _ => ⟨show _ = instrLength 0xF2 from rfl,
    show decodeOp 0xF2 0 0 = _ from rfl⟩
theorem isbIndY (zp : Byte) : Statement (.isbIndY zp) :=
  fun _ => ⟨show _ = instrLength 0xF3 from rfl,
    show decodeOp 0xF3 zp 0 = _ from rfl⟩
theorem nopZpXF4 (zp : Byte) : Statement (.nopZpXF4 zp) :=
  fun _ => ⟨show _ = instrLength 0xF4 from rfl,
    show decodeOp 0xF4 zp 0 = _ from rfl⟩
theorem sbcZpX (zp : Byte) : Statement (.sbcZpX zp) :=
  fun _ => ⟨show _ = instrLength 0xF5 from rfl,
    show decodeOp 0xF5 zp 0 = _ from rfl⟩
theorem incZpX (zp : Byte) : Statement (.incZpX zp) :=
  fun _ => ⟨show _ = instrLength 0xF6 from rfl,
    show decodeOp 0xF6 zp 0 = _ from rfl⟩
theorem isbZpX (zp : Byte) : Statement (.isbZpX zp) :=
  fun _ => ⟨show _ = instrLength 0xF7 from rfl,
    show decodeOp 0xF7 zp 0 = _ from rfl⟩
theorem sed : Statement .sed :=
  fun _ => ⟨show _ = instrLength 0xF8 from rfl,
    show decodeOp 0xF8 0 0 = _ from rfl⟩
theorem sbcAbsY (addr : Addr) : Statement (.sbcAbsY addr) :=
  fun _ => ⟨show _ = instrLength 0xF9 from rfl,
    show decodeOp 0xF9 (loByte addr) (hiByte addr) = _ from congrArg Instr.sbcAbsY (joinBytes_hi_lo addr)⟩
theorem nopFA : Statement .nopFA :=
  fun _ => ⟨show _ = instrLength 0xFA from rfl,
    show decodeOp 0xFA 0 0 = _ from rfl⟩
theorem isbAbsY (addr : Addr) : Statement (.isbAbsY addr) :=
  fun _ => ⟨show _ = instrLength 0xFB from rfl,
    show decodeOp 0xFB (loByte addr) (hiByte addr) = _ from congrArg Instr.isbAbsY (joinBytes_hi_lo addr)⟩
theorem nopAbsXFC (addr : Addr) : Statement (.nopAbsXFC addr) :=
  fun _ => ⟨show _ = instrLength 0xFC from rfl,
    show decodeOp 0xFC (loByte addr) (hiByte addr) = _ from congrArg Instr.nopAbsXFC (joinBytes_hi_lo addr)⟩
theorem sbcAbsX (addr : Addr) : Statement (.sbcAbsX addr) :=
  fun _ => ⟨show _ = instrLength 0xFD from rfl,
    show decodeOp 0xFD (loByte addr) (hiByte addr) = _ from congrArg Instr.sbcAbsX (joinBytes_hi_lo addr)⟩
theorem incAbsX (addr : Addr) : Statement (.incAbsX addr) :=
  fun _ => ⟨show _ = instrLength 0xFE from rfl,
    show decodeOp 0xFE (loByte addr) (hiByte addr) = _ from congrArg Instr.incAbsX (joinBytes_hi_lo addr)⟩
theorem isbAbsX (addr : Addr) : Statement (.isbAbsX addr) :=
  fun _ => ⟨show _ = instrLength 0xFF from rfl,
    show decodeOp 0xFF (loByte addr) (hiByte addr) = _ from congrArg Instr.isbAbsX (joinBytes_hi_lo addr)⟩

end Sys2Proof.Laws.Encoding
end

