-- ==== Sys2Proof/Laws/Table.lean ====
section
/-!
SUPPORT. The opcode table read column by column: the operation and the mode of an entry do not depend on the operand
bytes, and an instruction's own columns are those of its opcode byte.
-/

namespace Sys2Proof

/-- A column of the table, read before or after the entry is picked. -/
theorem decodeOp_map {α : Type} (f : Instr → α) (op lo hi : Byte) :
    f (decodeOp op lo hi) = (((opcodeMap lo (joinBytes hi lo)).map (List.map f)).getD (op.toNat / 16) []).getD
      (op.toNat % 16) (f .jam02) := by
  rw [decodeOp]
  simp only [List.getD_eq_getElem?_getD, List.getElem?_map]
  cases (opcodeMap lo (joinBytes hi lo))[op.toNat / 16]? with
  | none => simp
  | some row =>
    simp only [Option.map_some, Option.getD_some, List.getElem?_map]
    cases row[op.toNat % 16]? <;> rfl

theorem decodeOp_operation (op lo hi : Byte) : (decodeOp op lo hi).operation = (decodeOp op 0 0).operation := by
  rw [decodeOp_map Instr.operation, decodeOp_map Instr.operation]
  rfl

theorem decodeOp_mode (op lo hi : Byte) : (decodeOp op lo hi).mode = (decodeOp op 0 0).mode := by
  rw [decodeOp_map Instr.mode, decodeOp_map Instr.mode]
  rfl

/-- An instruction's operation and mode are those of its opcode byte. -/
theorem columns_of_opcode (i : Instr) :
    i.operation = (decodeOp i.opcode 0 0).operation ∧ i.mode = (decodeOp i.opcode 0 0).mode := by
  cases i <;> (simp only [Instr.opcode]; exact ⟨rfl, rfl⟩)

end Sys2Proof
end

