-- ==== Sys2Proof/Tests/Slice0.lean ====
section
/-!
SUPPORT. The model's own tests. Expected values come from the spec: decode words from the opcode map of
spec/30_encoding.md R124, one-step results from the vectors of spec/95_test_vectors.md (their numbers stand in the
names). Below them, a witness for each statement that has hypotheses: concrete states and operands that meet them.
-/

open Sys2Proof Sys2Proof.Machine Sys2Proof.Rules

namespace Sys2Proof.Tests

/-! ## Well-formedness: the only check is a branch's offset -/

theorem test_offset_128_is_ill_formed :
    [Instr.bpl 128, .bmi 128, .bvc 128, .bvs 128, .bcc 128, .bcs 128, .bne 128, .beq 128].map Instr.wf =
    List.replicate 8 false := by decide

theorem test_offset_minus_129_is_ill_formed :
    [Instr.bpl (-129), .bmi (-129), .bvc (-129), .bvs (-129), .bcc (-129), .bcs (-129), .bne (-129),
      .beq (-129)].map Instr.wf = List.replicate 8 false := by decide

theorem test_boundary_offsets_are_well_formed :
    [Instr.bpl 127, .bmi (-128), .bvc 127, .bvs (-128), .bcc 127, .bcs (-128), .bne 127, .beq (-128)].map Instr.wf =
    List.replicate 8 true := by decide

/-! ## Decoding: each row of the opcode map, a word for every constructor -/

/-- The instructions that words decode to, each with no byte left over. -/
def read (words : List (List Byte)) : List Instr :=
  words.filterMap fun w =>
    match decode w with
    | .ok (i, []) => some i
    | _ => none

theorem test_decode_row_0 : read
    [[0x00], [0x01, 0xC1], [0x02], [0x03, 0xC3], [0x04, 0xC4], [0x05, 0xC5], [0x06, 0xC6], [0x07, 0xC7], [0x08],
     [0x09, 0xC9], [0x0A], [0x0B], [0x0C, 0x34, 0xCC], [0x0D, 0x34, 0xCD], [0x0E, 0x34, 0xCE], [0x0F, 0x34, 0xCF]] =
    [.brk, .oraIndX 0xC1, .jam02, .sloIndX 0xC3, .nopZp04 0xC4, .oraZp 0xC5, .aslZp 0xC6, .sloZp 0xC7, .php,
     .oraImm 0xC9, .aslAcc, .anc0B, .nopAbs0C 0xCC34, .oraAbs 0xCD34, .aslAbs 0xCE34, .sloAbs 0xCF34] := by
  decide

theorem test_decode_row_1 : read
    [[0x10, 0x90], [0x11, 0xC1], [0x12], [0x13, 0xC3], [0x14, 0xC4], [0x15, 0xC5], [0x16, 0xC6], [0x17, 0xC7],
     [0x18], [0x19, 0x34, 0xC9], [0x1A], [0x1B, 0x34, 0xCB], [0x1C, 0x34, 0xCC], [0x1D, 0x34, 0xCD],
     [0x1E, 0x34, 0xCE], [0x1F, 0x34, 0xCF]] =
    [.bpl (-112), .oraIndY 0xC1, .jam12, .sloIndY 0xC3, .nopZpX14 0xC4, .oraZpX 0xC5, .aslZpX 0xC6, .sloZpX 0xC7,
     .clc, .oraAbsY 0xC934, .nop1A, .sloAbsY 0xCB34, .nopAbsX1C 0xCC34, .oraAbsX 0xCD34, .aslAbsX 0xCE34,
     .sloAbsX 0xCF34] := by
  decide

theorem test_decode_row_2 : read
    [[0x20, 0x34, 0xC0], [0x21, 0xC1], [0x22], [0x23, 0xC3], [0x24, 0xC4], [0x25, 0xC5], [0x26, 0xC6], [0x27, 0xC7],
     [0x28], [0x29, 0xC9], [0x2A], [0x2B], [0x2C, 0x34, 0xCC], [0x2D, 0x34, 0xCD], [0x2E, 0x34, 0xCE],
     [0x2F, 0x34, 0xCF]] =
    [.jsr 0xC034, .andIndX 0xC1, .jam22, .rlaIndX 0xC3, .bitZp 0xC4, .andZp 0xC5, .rolZp 0xC6, .rlaZp 0xC7, .plp,
     .andImm 0xC9, .rolAcc, .anc2B, .bitAbs 0xCC34, .andAbs 0xCD34, .rolAbs 0xCE34, .rlaAbs 0xCF34] := by
  decide

theorem test_decode_row_3 : read
    [[0x30, 0x90], [0x31, 0xC1], [0x32], [0x33, 0xC3], [0x34, 0xC4], [0x35, 0xC5], [0x36, 0xC6], [0x37, 0xC7],
     [0x38], [0x39, 0x34, 0xC9], [0x3A], [0x3B, 0x34, 0xCB], [0x3C, 0x34, 0xCC], [0x3D, 0x34, 0xCD],
     [0x3E, 0x34, 0xCE], [0x3F, 0x34, 0xCF]] =
    [.bmi (-112), .andIndY 0xC1, .jam32, .rlaIndY 0xC3, .nopZpX34 0xC4, .andZpX 0xC5, .rolZpX 0xC6, .rlaZpX 0xC7,
     .sec, .andAbsY 0xC934, .nop3A, .rlaAbsY 0xCB34, .nopAbsX3C 0xCC34, .andAbsX 0xCD34, .rolAbsX 0xCE34,
     .rlaAbsX 0xCF34] := by
  decide

theorem test_decode_row_4 : read
    [[0x40], [0x41, 0xC1], [0x42], [0x43, 0xC3], [0x44, 0xC4], [0x45, 0xC5], [0x46, 0xC6], [0x47, 0xC7], [0x48],
     [0x49, 0xC9], [0x4A], [0x4B], [0x4C, 0x34, 0xCC], [0x4D, 0x34, 0xCD], [0x4E, 0x34, 0xCE], [0x4F, 0x34, 0xCF]] =
    [.rti, .eorIndX 0xC1, .jam42, .sreIndX 0xC3, .nopZp44 0xC4, .eorZp 0xC5, .lsrZp 0xC6, .sreZp 0xC7, .pha,
     .eorImm 0xC9, .lsrAcc, .alr4B, .jmpAbs 0xCC34, .eorAbs 0xCD34, .lsrAbs 0xCE34, .sreAbs 0xCF34] := by
  decide

theorem test_decode_row_5 : read
    [[0x50, 0x90], [0x51, 0xC1], [0x52], [0x53, 0xC3], [0x54, 0xC4], [0x55, 0xC5], [0x56, 0xC6], [0x57, 0xC7],
     [0x58], [0x59, 0x34, 0xC9], [0x5A], [0x5B, 0x34, 0xCB], [0x5C, 0x34, 0xCC], [0x5D, 0x34, 0xCD],
     [0x5E, 0x34, 0xCE], [0x5F, 0x34, 0xCF]] =
    [.bvc (-112), .eorIndY 0xC1, .jam52, .sreIndY 0xC3, .nopZpX54 0xC4, .eorZpX 0xC5, .lsrZpX 0xC6, .sreZpX 0xC7,
     .cli, .eorAbsY 0xC934, .nop5A, .sreAbsY 0xCB34, .nopAbsX5C 0xCC34, .eorAbsX 0xCD34, .lsrAbsX 0xCE34,
     .sreAbsX 0xCF34] := by
  decide

theorem test_decode_row_6 : read
    [[0x60], [0x61, 0xC1], [0x62], [0x63, 0xC3], [0x64, 0xC4], [0x65, 0xC5], [0x66, 0xC6], [0x67, 0xC7], [0x68],
     [0x69, 0xC9], [0x6A], [0x6B], [0x6C, 0x34, 0xCC], [0x6D, 0x34, 0xCD], [0x6E, 0x34, 0xCE], [0x6F, 0x34, 0xCF]] =
    [.rts, .adcIndX 0xC1, .jam62, .rraIndX 0xC3, .nopZp64 0xC4, .adcZp 0xC5, .rorZp 0xC6, .rraZp 0xC7, .pla,
     .adcImm 0xC9, .rorAcc, .arr6B, .jmpInd 0xCC34, .adcAbs 0xCD34, .rorAbs 0xCE34, .rraAbs 0xCF34] := by
  decide

theorem test_decode_row_7 : read
    [[0x70, 0x90], [0x71, 0xC1], [0x72], [0x73, 0xC3], [0x74, 0xC4], [0x75, 0xC5], [0x76, 0xC6], [0x77, 0xC7],
     [0x78], [0x79, 0x34, 0xC9], [0x7A], [0x7B, 0x34, 0xCB], [0x7C, 0x34, 0xCC], [0x7D, 0x34, 0xCD],
     [0x7E, 0x34, 0xCE], [0x7F, 0x34, 0xCF]] =
    [.bvs (-112), .adcIndY 0xC1, .jam72, .rraIndY 0xC3, .nopZpX74 0xC4, .adcZpX 0xC5, .rorZpX 0xC6, .rraZpX 0xC7,
     .sei, .adcAbsY 0xC934, .nop7A, .rraAbsY 0xCB34, .nopAbsX7C 0xCC34, .adcAbsX 0xCD34, .rorAbsX 0xCE34,
     .rraAbsX 0xCF34] := by
  decide

theorem test_decode_row_8 : read
    [[0x80, 0xC0], [0x81, 0xC1], [0x82, 0xC2], [0x83, 0xC3], [0x84, 0xC4], [0x85, 0xC5], [0x86, 0xC6], [0x87, 0xC7],
     [0x88], [0x89, 0xC9], [0x8A], [0x8B], [0x8C, 0x34, 0xCC], [0x8D, 0x34, 0xCD], [0x8E, 0x34, 0xCE],
     [0x8F, 0x34, 0xCF]] =
    [.nopImm80 0xC0, .staIndX 0xC1, .nopImm82 0xC2, .saxIndX 0xC3, .styZp 0xC4, .staZp 0xC5, .stxZp 0xC6,
     .saxZp 0xC7, .dey, .nopImm89 0xC9, .txa, .ane8B, .styAbs 0xCC34, .staAbs 0xCD34, .stxAbs 0xCE34, .saxAbs 0xCF34] := by
  decide

theorem test_decode_row_9 : read
    [[0x90, 0x90], [0x91, 0xC1], [0x92], [0x93], [0x94, 0xC4], [0x95, 0xC5], [0x96, 0xC6], [0x97, 0xC7], [0x98],
     [0x99, 0x34, 0xC9], [0x9A], [0x9B], [0x9C], [0x9D, 0x34, 0xCD], [0x9E], [0x9F]] =
    [.bcc (-112), .staIndY 0xC1, .jam92, .sha93, .styZpX 0xC4, .staZpX 0xC5, .stxZpY 0xC6, .saxZpY 0xC7, .tya,
     .staAbsY 0xC934, .txs, .tas9B, .shy9C, .staAbsX 0xCD34, .shx9E, .sha9F] := by
  decide

theorem test_decode_row_A : read
    [[0xA0, 0xC0], [0xA1, 0xC1], [0xA2, 0xC2], [0xA3, 0xC3], [0xA4, 0xC4], [0xA5, 0xC5], [0xA6, 0xC6], [0xA7, 0xC7],
     [0xA8], [0xA9, 0xC9], [0xAA], [0xAB], [0xAC, 0x34, 0xCC], [0xAD, 0x34, 0xCD], [0xAE, 0x34, 0xCE],
     [0xAF, 0x34, 0xCF]] =
    [.ldyImm 0xC0, .ldaIndX 0xC1, .ldxImm 0xC2, .laxIndX 0xC3, .ldyZp 0xC4, .ldaZp 0xC5, .ldxZp 0xC6, .laxZp 0xC7,
     .tay, .ldaImm 0xC9, .tax, .lxaAB, .ldyAbs 0xCC34, .ldaAbs 0xCD34, .ldxAbs 0xCE34, .laxAbs 0xCF34] := by
  decide

theorem test_decode_row_B : read
    [[0xB0, 0x90], [0xB1, 0xC1], [0xB2], [0xB3, 0xC3], [0xB4, 0xC4], [0xB5, 0xC5], [0xB6, 0xC6], [0xB7, 0xC7],
     [0xB8], [0xB9, 0x34, 0xC9], [0xBA], [0xBB], [0xBC, 0x34, 0xCC], [0xBD, 0x34, 0xCD], [0xBE, 0x34, 0xCE],
     [0xBF, 0x34, 0xCF]] =
    [.bcs (-112), .ldaIndY 0xC1, .jamB2, .laxIndY 0xC3, .ldyZpX 0xC4, .ldaZpX 0xC5, .ldxZpY 0xC6, .laxZpY 0xC7, .clv,
     .ldaAbsY 0xC934, .tsx, .lasBB, .ldyAbsX 0xCC34, .ldaAbsX 0xCD34, .ldxAbsY 0xCE34, .laxAbsY 0xCF34] := by
  decide

theorem test_decode_row_C : read
    [[0xC0, 0xC0], [0xC1, 0xC1], [0xC2, 0xC2], [0xC3, 0xC3], [0xC4, 0xC4], [0xC5, 0xC5], [0xC6, 0xC6], [0xC7, 0xC7],
     [0xC8], [0xC9, 0xC9], [0xCA], [0xCB], [0xCC, 0x34, 0xCC], [0xCD, 0x34, 0xCD], [0xCE, 0x34, 0xCE],
     [0xCF, 0x34, 0xCF]] =
    [.cpyImm 0xC0, .cmpIndX 0xC1, .nopImmC2 0xC2, .dcpIndX 0xC3, .cpyZp 0xC4, .cmpZp 0xC5, .decZp 0xC6, .dcpZp 0xC7,
     .iny, .cmpImm 0xC9, .dex, .sbxCB, .cpyAbs 0xCC34, .cmpAbs 0xCD34, .decAbs 0xCE34, .dcpAbs 0xCF34] := by
  decide

theorem test_decode_row_D : read
    [[0xD0, 0x90], [0xD1, 0xC1], [0xD2], [0xD3, 0xC3], [0xD4, 0xC4], [0xD5, 0xC5], [0xD6, 0xC6], [0xD7, 0xC7],
     [0xD8], [0xD9, 0x34, 0xC9], [0xDA], [0xDB, 0x34, 0xCB], [0xDC, 0x34, 0xCC], [0xDD, 0x34, 0xCD],
     [0xDE, 0x34, 0xCE], [0xDF, 0x34, 0xCF]] =
    [.bne (-112), .cmpIndY 0xC1, .jamD2, .dcpIndY 0xC3, .nopZpXD4 0xC4, .cmpZpX 0xC5, .decZpX 0xC6, .dcpZpX 0xC7,
     .cld, .cmpAbsY 0xC934, .nopDA, .dcpAbsY 0xCB34, .nopAbsXDC 0xCC34, .cmpAbsX 0xCD34, .decAbsX 0xCE34,
     .dcpAbsX 0xCF34] := by
  decide

theorem test_decode_row_E : read
    [[0xE0, 0xC0], [0xE1, 0xC1], [0xE2, 0xC2], [0xE3, 0xC3], [0xE4, 0xC4], [0xE5, 0xC5], [0xE6, 0xC6], [0xE7, 0xC7],
     [0xE8], [0xE9, 0xC9], [0xEA], [0xEB, 0xCB], [0xEC, 0x34, 0xCC], [0xED, 0x34, 0xCD], [0xEE, 0x34, 0xCE],
     [0xEF, 0x34, 0xCF]] =
    [.cpxImm 0xC0, .sbcIndX 0xC1, .nopImmE2 0xC2, .isbIndX 0xC3, .cpxZp 0xC4, .sbcZp 0xC5, .incZp 0xC6, .isbZp 0xC7,
     .inx, .sbcImm 0xC9, .nop, .sbcImmEB 0xCB, .cpxAbs 0xCC34, .sbcAbs 0xCD34, .incAbs 0xCE34, .isbAbs 0xCF34] := by
  decide

theorem test_decode_row_F : read
    [[0xF0, 0x90], [0xF1, 0xC1], [0xF2], [0xF3, 0xC3], [0xF4, 0xC4], [0xF5, 0xC5], [0xF6, 0xC6], [0xF7, 0xC7],
     [0xF8], [0xF9, 0x34, 0xC9], [0xFA], [0xFB, 0x34, 0xCB], [0xFC, 0x34, 0xCC], [0xFD, 0x34, 0xCD],
     [0xFE, 0x34, 0xCE], [0xFF, 0x34, 0xCF]] =
    [.beq (-112), .sbcIndY 0xC1, .jamF2, .isbIndY 0xC3, .nopZpXF4 0xC4, .sbcZpX 0xC5, .incZpX 0xC6, .isbZpX 0xC7,
     .sed, .sbcAbsY 0xC934, .nopFA, .isbAbsY 0xCB34, .nopAbsXFC 0xCC34, .sbcAbsX 0xCD34, .incAbsX 0xCE34,
     .isbAbsX 0xCF34] := by
  decide

/-- R120: a list that ends inside an instruction is rejected by name. -/
theorem test_decode_truncated :
    (match decode [0xAD, 0x34] with | .error e => some e | .ok _ => none) = some (.truncated 0xAD) ∧
    (match decode [] with | .error e => some e | .ok _ => none) = some .empty := by decide

/-- The word of JMP ($02FF) as the opcode table numbers its bits: the second byte is bits 15:8. -/
theorem test_decode_table_word :
    decodeTableWord 24 0x02FF6C = some (.jmpInd 0x02FF) ∧ decodeTableWord 8 0x6C = some (.jmpInd 0) := by decide

/-! ## One instruction step from the base state of spec/95_test_vectors.md -/

/-- The base state: PC at 0x8000 and the three vectors in PRG ROM. -/
def base : State :=
  { State.reset with
    pc := 0x8000,
    cart := { State.reset.cart with prg := [(0x3FFB, 0x91), (0x3FFD, 0x80), (0x3FFF, 0x90)] } }

/-- Bytes placed in PRG ROM from an index on. -/
def placed : Nat → List Byte → Memory → Memory
  | _, [], m => m
  | i, b :: rest, m => placed (i + 1) rest (m.write i b)

/-- The state with these bytes at PC. -/
def State.holding (s : State) (bytes : List Byte) : State :=
  { s with cart := { s.cart with prg := placed (s.pc &&& 0x3FFF#16).toNat bytes s.cart.prg } }

/-- The state after one instruction step. -/
def one (bytes : List Byte) (s : State) : Option State :=
  match executeSingle (State.holding s bytes) with
  | .next t => some t
  | _ => none

theorem test_T5_lda :
    (one [0xB5, 0xFF]
      { base with x := 0x01, ram := [(0x0000, 0x99), (0x0100, 0x11)] }).map
      (fun t => (t.a, t.p, t.pc, t.cyc)) =
    some (0x99, 0xA0, 0x8002, 11) := by decide

theorem test_T6_ldx :
    (one [0xB6, 0x80]
      { base with y := 0x90, ram := [(0x0010, 0x77)] }).map
      (fun t => (t.x, t.pc, t.p, t.cyc)) =
    some (0x77, 0x8002, 0x20, 11) := by decide

theorem test_T8_lda :
    (one [0xBD, 0xF0, 0x12]
      { base with x := 0x20, ram := [(0x0310, 0x44)] }).map
      (fun t => (t.a, t.pc, t.p, t.cyc)) =
    some (0x44, 0x8003, 0x20, 12) := by decide

theorem test_T10_lda :
    (one [0xB9, 0xFF, 0xFF]
      { base with y := 0x01, ram := [(0x0000, 0x66)] }).map
      (fun t => (t.a, t.pc, t.p, t.cyc)) =
    some (0x66, 0x8003, 0x20, 12) := by decide

theorem test_T11_jmp :
    (one [0x6C, 0xFF, 0x02]
      { base with ram := [(0x0200, 0x50), (0x02FF, 0x40), (0x0300, 0x99)] }).map
      (fun t => (t.pc, t.p, t.cyc)) =
    some (0x5040, 0x20, 12) := by decide

theorem test_T13_lda :
    (one [0xA1, 0xFE]
      { base with x := 0x01, ram := [(0x0000, 0x02), (0x00FF, 0x34), (0x0100, 0x07), (0x0234, 0xAB)] }).map
      (fun t => (t.a, t.p, t.pc, t.cyc)) =
    some (0xAB, 0xA0, 0x8002, 13) := by decide

theorem test_T16_lda :
    (one [0xB1, 0xFF]
      { base with y := 0x01, ram := [(0x0000, 0x03), (0x0301, 0xEE)] }).map
      (fun t => (t.a, t.p, t.pc, t.cyc)) =
    some (0xEE, 0xA0, 0x8002, 12) := by decide

theorem test_T18_pha :
    (one [0x48]
      { base with a := 0x5A, sp := 0x00 }).map
      (fun t => (t.sp, t.pc, t.ram.read 0x0100, t.p, t.cyc)) =
    some (0xFF, 0x8001, 0x5A, 0x20, 10) := by decide

theorem test_T19_pla :
    (one [0x68]
      { base with sp := 0xFF, ram := [(0x0100, 0x01)] }).map
      (fun t => (t.a, t.sp, t.pc, t.p, t.cyc)) =
    some (0x01, 0x00, 0x8001, 0x20, 11) := by decide

theorem test_T20_sta :
    (one [0x9D, 0xF0, 0x02]
      { base with a := 0x11, x := 0x20 }).map
      (fun t => (t.pc, t.ram.read 0x0310, t.p, t.cyc)) =
    some (0x8003, 0x11, 0x20, 12) := by decide

theorem test_T21_inc :
    (one [0xEE, 0x07, 0x20]
      { base with ppu := { base.ppu with vramAddr := 0x2000, readBuf := 0x11, vram := [(0x000, 0x22)] } }).map
      (fun t => ((t.pc, t.ppu.vram.read 0x001, t.ppu.vramAddr, t.ppu.readBuf), t.p, t.cyc)) =
    some ((0x8003, 0x12, 0x2002, 0x22), 0x20, 13) := by decide

theorem test_T24_lda :
    (one [0xAD, 0x02, 0x20]
      { base with ppu := { base.ppu with status := 0x80, addrW := true } }).map
      (fun t => ((t.a, t.p, t.pc, t.ppu.status), t.ppu.addrW, t.cyc)) =
    some ((0x80, 0xA0, 0x8003, 0x00), false, 11) := by decide

theorem test_T28_ldx :
    (one [0xBE, 0xF0, 0x02]
      { base with y := 0x20, ram := [(0x0310, 0x01)] }).map
      (fun t => (t.x, t.pc, t.p, t.cyc)) =
    some (0x01, 0x8003, 0x20, 12) := by decide

theorem test_T30_ldy :
    (one [0xBC, 0xFF, 0x01]
      { base with x := 0x01, ram := [(0x0200, 0xFE)] }).map
      (fun t => (t.y, t.p, t.pc, t.cyc)) =
    some (0xFE, 0xA0, 0x8003, 12) := by decide

theorem test_T34_sta :
    (one [0x8D, 0x00, 0x80]
      { base with a := 0x42 }).map
      (fun t => (t.pc, t.illegalWrite, t.illegalWrites, t.p, t.cyc)) =
    some (0x8003, true, [0x8000], 0x20, 11) := by decide

theorem test_T38_stx :
    (one [0x96, 0xFF]
      { base with x := 0x07, y := 0x02 }).map
      (fun t => (t.pc, t.ram.read 0x0001, t.p, t.cyc)) =
    some (0x8002, 0x07, 0x20, 11) := by decide

theorem test_T40_sty :
    (one [0x94, 0xFF]
      { base with y := 0x09, x := 0x01 }).map
      (fun t => (t.pc, t.ram.read 0x0000, t.p, t.cyc)) =
    some (0x8002, 0x09, 0x20, 11) := by decide

theorem test_T41_tax :
    (one [0xAA]
      { base with a := 0xFF }).map
      (fun t => (t.x, t.p, t.pc, t.cyc)) =
    some (0xFF, 0xA0, 0x8001, 9) := by decide

theorem test_T43_tay :
    (one [0xA8]
      { base with a := 0x00, y := 0x34 }).map
      (fun t => (t.y, t.p, t.pc, t.cyc)) =
    some (0x00, 0x22, 0x8001, 9) := by decide

theorem test_T45_tsx :
    (one [0xBA]
      { base with sp := 0x00, x := 0x01 }).map
      (fun t => (t.x, t.p, t.pc, t.cyc)) =
    some (0x00, 0x22, 0x8001, 9) := by decide

theorem test_T46_txa :
    (one [0x8A]
      { base with x := 0x10 }).map
      (fun t => (t.a, t.pc, t.p, t.cyc)) =
    some (0x10, 0x8001, 0x20, 9) := by decide

theorem test_T48_txs :
    (one [0x9A]
      { base with x := 0x00, p := 0xA0 }).map
      (fun t => (t.sp, t.pc, t.p, t.cyc)) =
    some (0x00, 0x8001, 0xA0, 9) := by decide

theorem test_T49_tya :
    (one [0x98]
      { base with y := 0x80 }).map
      (fun t => (t.a, t.p, t.pc, t.cyc)) =
    some (0x80, 0xA0, 0x8001, 9) := by decide

theorem test_T53_php :
    (one [0x08]
      { base with p := 0xEF }).map
      (fun t => (t.sp, t.pc, t.ram.read 0x01FD, t.p, t.cyc)) =
    some (0xFC, 0x8001, 0xFF, 0xEF, 10) := by decide

theorem test_T54_pla :
    (one [0x68]
      { base with sp := 0xFC, ram := [(0x01FD, 0x80)] }).map
      (fun t => (t.a, t.sp, t.p, t.pc, t.cyc)) =
    some (0x80, 0xFD, 0xA0, 0x8001, 11) := by decide

theorem test_T56_plp :
    (one [0x28]
      { base with sp := 0xFC, ram := [(0x01FD, 0xFF)] }).map
      (fun t => (t.sp, t.p, t.pc, t.cyc)) =
    some (0xFD, 0xEF, 0x8001, 11) := by decide

theorem test_T60_inc :
    (one [0xE6, 0x10]
      { base with ram := [(0x0010, 0xFF)] }).map
      (fun t => (t.p, t.pc, t.ram.read 0x0010, t.cyc)) =
    some (0x22, 0x8002, 0x00, 12) := by decide

theorem test_T64_dec :
    (one [0xCE, 0x00, 0x02]
      base).map
      (fun t => (t.p, t.pc, t.ram.read 0x0200, t.cyc)) =
    some (0xA0, 0x8003, 0xFF, 13) := by decide

theorem test_T66_inx :
    (one [0xE8]
      { base with x := 0xFF }).map
      (fun t => (t.x, t.p, t.pc, t.cyc)) =
    some (0x00, 0x22, 0x8001, 9) := by decide

theorem test_T69_iny :
    (one [0xC8]
      { base with y := 0xFF, p := 0x21 }).map
      (fun t => (t.y, t.p, t.pc, t.cyc)) =
    some (0x00, 0x23, 0x8001, 9) := by decide

theorem test_T71_dex :
    (one [0xCA]
      { base with x := 0x00 }).map
      (fun t => (t.x, t.p, t.pc, t.cyc)) =
    some (0xFF, 0xA0, 0x8001, 9) := by decide

theorem test_T73_dey :
    (one [0x88]
      { base with y := 0x01 }).map
      (fun t => (t.y, t.p, t.pc, t.cyc)) =
    some (0x00, 0x22, 0x8001, 9) := by decide

theorem test_T76_adc :
    (one [0x69, 0x50]
      { base with a := 0x50 }).map
      (fun t => (t.a, t.p, t.pc, t.cyc)) =
    some (0xA0, 0xE0, 0x8002, 9) := by decide

theorem test_T79_adc :
    (one [0x69, 0xFF]
      { base with a := 0xFF, p := 0x21 }).map
      (fun t => (t.p, t.pc, t.cyc)) =
    some (0xA1, 0x8002, 9) := by decide

theorem test_T86_sbc :
    (one [0xE9, 0xB0]
      { base with a := 0x50, p := 0x21 }).map
      (fun t => (t.a, t.p, t.pc, t.cyc)) =
    some (0xA0, 0xE0, 0x8002, 9) := by decide

theorem test_T88_sbc :
    (one [0xE9, 0x00]
      { base with a := 0x00, p := 0x20 }).map
      (fun t => (t.a, t.p, t.pc, t.cyc)) =
    some (0xFF, 0xA0, 0x8002, 9) := by decide

theorem test_T92_and :
    (one [0x29, 0x3C]
      { base with a := 0xF0 }).map
      (fun t => (t.a, t.pc, t.p, t.cyc)) =
    some (0x30, 0x8002, 0x20, 9) := by decide

theorem test_T95_eor :
    (one [0x49, 0x0F]
      { base with a := 0xFF }).map
      (fun t => (t.a, t.p, t.pc, t.cyc)) =
    some (0xF0, 0xA0, 0x8002, 9) := by decide

theorem test_T97_ora :
    (one [0x09, 0x80]
      { base with a := 0x01 }).map
      (fun t => (t.a, t.p, t.pc, t.cyc)) =
    some (0x81, 0xA0, 0x8002, 9) := by decide

theorem test_T99_asl :
    (one [0x0A]
      { base with a := 0x81 }).map
      (fun t => (t.a, t.p, t.pc, t.cyc)) =
    some (0x02, 0x21, 0x8001, 9) := by decide

theorem test_T103_asl :
    (one [0x1E, 0xF0, 0x02]
      { base with x := 0x20, ram := [(0x0310, 0x01)] }).map
      (fun t => (t.pc, t.ram.read 0x0310, t.p, t.cyc)) =
    some (0x8003, 0x02, 0x20, 14) := by decide

theorem test_T104_lsr :
    (one [0x46, 0x10]
      { base with ram := [(0x0010, 0x03)] }).map
      (fun t => (t.p, t.pc, t.ram.read 0x0010, t.cyc)) =
    some (0x21, 0x8002, 0x01, 12) := by decide

theorem test_T107_rol :
    (one [0x2A]
      { base with a := 0x40, p := 0x21 }).map
      (fun t => (t.a, t.p, t.pc, t.cyc)) =
    some (0x81, 0xA0, 0x8001, 9) := by decide

theorem test_T113_ror :
    (one [0x6A]
      { base with a := 0x00, p := 0x21 }).map
      (fun t => (t.a, t.p, t.pc, t.cyc)) =
    some (0x80, 0xA0, 0x8001, 9) := by decide

theorem test_T115_clc :
    (one [0x18]
      { base with p := 0xEF }).map
      (fun t => (t.p, t.pc, t.cyc)) =
    some (0xEE, 0x8001, 9) := by decide

theorem test_T116_cld :
    (one [0xD8]
      { base with p := 0x28 }).map
      (fun t => (t.p, t.pc, t.cyc)) =
    some (0x20, 0x8001, 9) := by decide

theorem test_T117_cli :
    (one [0x58]
      { base with p := 0x24 }).map
      (fun t => (t.p, t.pc, t.cyc)) =
    some (0x20, 0x8001, 9) := by decide

theorem test_T118_clv :
    (one [0xB8]
      { base with p := 0x60 }).map
      (fun t => (t.p, t.pc, t.cyc)) =
    some (0x20, 0x8001, 9) := by decide

theorem test_T119_sec :
    (one [0x38]
      base).map
      (fun t => (t.p, t.pc, t.cyc)) =
    some (0x21, 0x8001, 9) := by decide

theorem test_T120_sed :
    (one [0xF8]
      base).map
      (fun t => (t.p, t.pc, t.cyc)) =
    some (0x28, 0x8001, 9) := by decide

theorem test_T121_sei :
    (one [0x78]
      base).map
      (fun t => (t.p, t.pc, t.cyc)) =
    some (0x24, 0x8001, 9) := by decide

theorem test_T123_cmp :
    (one [0xC9, 0x20]
      { base with a := 0x10 }).map
      (fun t => (t.p, t.pc, t.cyc)) =
    some (0xA0, 0x8002, 9) := by decide

theorem test_T126_cmp :
    (one [0xC9, 0xFF]
      { base with a := 0x00, p := 0x21 }).map
      (fun t => (t.p, t.pc, t.cyc)) =
    some (0x20, 0x8002, 9) := by decide

theorem test_T130_cpx :
    (one [0xEC, 0x00, 0x02]
      { base with x := 0x04, ram := [(0x0200, 0x05)] }).map
      (fun t => (t.p, t.pc, t.cyc)) =
    some (0xA0, 0x8003, 11) := by decide

theorem test_T132_cpy :
    (one [0xC4, 0x10]
      { base with y := 0x80 }).map
      (fun t => (t.p, t.pc, t.cyc)) =
    some (0xA1, 0x8002, 10) := by decide

theorem test_T134_bcc :
    (one [0x90, 0x02]
      { base with p := 0x21 }).map
      (fun t => (t.pc, t.p, t.cyc)) =
    some (0x8002, 0x21, 9) := by decide

theorem test_T136_bcs :
    (one [0xB0, 0xFE]
      { base with p := 0x21 }).map
      (fun t => (t.pc, t.p, t.cyc)) =
    some (0x8000, 0x21, 10) := by decide

theorem test_T137_beq :
    (one [0xF0, 0xFC]
      { base with p := 0x22 }).map
      (fun t => (t.pc, t.p, t.cyc)) =
    some (0x7FFE, 0x22, 11) := by decide

theorem test_T138_bmi :
    (one [0x30, 0x10]
      { base with pc := 0x80F0, p := 0xA0 }).map
      (fun t => (t.pc, t.p, t.cyc)) =
    some (0x8102, 0xA0, 11) := by decide

theorem test_T139_bne :
    (one [0xD0, 0xFE]
      base).map
      (fun t => (t.pc, t.p, t.cyc)) =
    some (0x8000, 0x20, 10) := by decide

theorem test_T142_bpl :
    (one [0x10, 0x0C]
      { base with pc := 0x80F2 }).map
      (fun t => (t.pc, t.p, t.cyc)) =
    some (0x8100, 0x20, 11) := by decide

theorem test_T143_bvc :
    (one [0x50, 0x7F]
      base).map
      (fun t => (t.pc, t.p, t.cyc)) =
    some (0x8081, 0x20, 10) := by decide

theorem test_T144_bvs :
    (one [0x70, 0x80]
      { base with p := 0x60 }).map
      (fun t => (t.pc, t.p, t.cyc)) =
    some (0x7F82, 0x60, 11) := by decide

theorem test_T146_jmp :
    (one [0x4C, 0x00, 0xC0]
      base).map
      (fun t => (t.pc, t.p, t.cyc)) =
    some (0xC000, 0x20, 10) := by decide

theorem test_T149_jsr :
    (one [0x20, 0x00, 0x90]
      { base with sp := 0x00 }).map
      (fun t => ((t.sp, t.pc, t.ram.read 0x0100, t.ram.read 0x01FF), t.p, t.cyc)) =
    some ((0xFE, 0x9000, 0x80, 0x02), 0x20, 13) := by decide

theorem test_T151_rts :
    (one [0x60]
      { base with pc := 0x9000, sp := 0xFB, ram := [(0x01FC, 0xFF), (0x01FD, 0xFF)] }).map
      (fun t => (t.sp, t.pc, t.p, t.cyc)) =
    some (0xFD, 0x0000, 0x20, 13) := by decide

theorem test_T154_brk :
    (one [0x00]
      { base with p := 0x28 }).map
      (fun t => ((t.sp, t.p, t.pc, t.ram.read 0x01FB), t.ram.read 0x01FC, t.ram.read 0x01FD, t.cyc)) =
    some ((0xFA, 0x2C, 0x9000, 0x38), 0x02, 0x80, 14) := by decide

theorem test_T156_rti :
    (one [0x40]
      { base with
        pc := 0x9000, sp := 0xFA, p := 0x24, ram := [(0x01FB, 0xFF), (0x01FC, 0x34), (0x01FD, 0x12)] }).map
      (fun t => (t.sp, t.p, t.pc, t.cyc)) =
    some (0xFD, 0xEF, 0x1234, 13) := by decide

theorem test_T158_bit :
    (one [0x24, 0x10]
      { base with a := 0x00, ram := [(0x0010, 0xC0)] }).map
      (fun t => (t.p, t.pc, t.cyc)) =
    some (0xE2, 0x8002, 10) := by decide

theorem test_T161_nop :
    (one [0xEA]
      base).map
      (fun t => (t.pc, t.p, t.cyc)) =
    some (0x8001, 0x20, 9) := by decide

theorem test_T163_lax :
    (one [0xBF, 0xF0, 0x02]
      { base with y := 0x20 }).map
      (fun t => (t.p, t.pc, t.cyc)) =
    some (0x22, 0x8003, 12) := by decide

theorem test_T166_sax :
    (one [0x87, 0x10]
      { base with a := 0xF0, x := 0x3C, p := 0xA0 }).map
      (fun t => (t.pc, t.ram.read 0x0010, t.p, t.cyc)) =
    some (0x8002, 0x30, 0xA0, 10) := by decide

theorem test_T169_dcp :
    (one [0xC7, 0x10]
      { base with a := 0xFF }).map
      (fun t => (t.p, t.pc, t.ram.read 0x0010, t.cyc)) =
    some (0x23, 0x8002, 0xFF, 12) := by decide

theorem test_T172_isb :
    (one [0xE7, 0x10]
      { base with a := 0x05, p := 0x20, ram := [(0x0010, 0xFF)] }).map
      (fun t => (t.a, t.p, t.pc, t.ram.read 0x0010, t.cyc)) =
    some (0x04, 0x21, 0x8002, 0x00, 12) := by decide

theorem test_T174_slo :
    (one [0x07, 0x10]
      { base with a := 0x10, ram := [(0x0010, 0x81)] }).map
      (fun t => (t.a, t.p, t.pc, t.ram.read 0x0010, t.cyc)) =
    some (0x12, 0x21, 0x8002, 0x02, 12) := by decide

theorem test_T177_rla :
    (one [0x27, 0x10]
      { base with a := 0xFF, ram := [(0x0010, 0x80)] }).map
      (fun t => (t.a, t.p, t.pc, t.ram.read 0x0010, t.cyc)) =
    some (0x00, 0x23, 0x8002, 0x00, 12) := by decide

theorem test_T178_sre :
    (one [0x47, 0x10]
      { base with a := 0xFF, ram := [(0x0010, 0x03)] }).map
      (fun t => (t.a, t.p, t.pc, t.ram.read 0x0010, t.cyc)) =
    some (0xFE, 0xA1, 0x8002, 0x01, 12) := by decide

theorem test_T181_rra :
    (one [0x67, 0x10]
      { base with a := 0xFF, ram := [(0x0010, 0x01)] }).map
      (fun t => (t.a, t.p, t.pc, t.ram.read 0x0010, t.cyc)) =
    some (0x00, 0x23, 0x8002, 0x00, 12) := by decide

theorem test_T183_nop :
    (one [0x1A]
      base).map
      (fun t => (t.pc, t.p, t.cyc)) =
    some (0x8001, 0x20, 9) := by decide

theorem test_T185_nop :
    (one [0x89, 0x00]
      { base with p := 0xE3 }).map
      (fun t => (t.pc, t.p, t.cyc)) =
    some (0x8002, 0xE3, 9) := by decide

theorem test_T186_nop :
    (one [0x1C, 0xF0, 0x12]
      { base with x := 0x20 }).map
      (fun t => (t.pc, t.p, t.cyc)) =
    some (0x8003, 0x20, 12) := by decide

theorem test_T189_nop :
    (one [0x0C, 0x02, 0x20]
      { base with
        ppu := { base.ppu with status := 0x80 }, params := { prgRamPresent := false, nopReadsOperand := true } }).map
      (fun t => (t.pc, t.ppu.status, t.p, t.cyc)) =
    some (0x8003, 0x00, 0x20, 11) := by decide

theorem test_T190_sbc :
    (one [0xEB, 0x03]
      { base with a := 0x05, p := 0x21 }).map
      (fun t => (t.a, t.pc, t.p, t.cyc)) =
    some (0x02, 0x8002, 0x21, 9) := by decide

theorem test_T195_sta :
    (one [0x8D, 0x00, 0x20]
      { base with a := 0x80, ppu := { base.ppu with status := 0x80 } }).map
      (fun t => (t.pc, t.ppu.ctrl, t.ppu.nmiPending, t.p, t.cyc)) =
    some (0x8003, 0x80, true, 0x20, 11) := by decide

theorem test_T202_sta :
    (one [0x8D, 0x04, 0x20]
      { base with a := 0x77, ppu := { base.ppu with oamAddr := 0xFF } }).map
      (fun t => (t.pc, t.ppu.oam.read 0x0FF, t.ppu.oamAddr, t.p, t.cyc)) =
    some (0x8003, 0x77, 0x00, 0x20, 11) := by decide

theorem test_T206_sta :
    (one [0x8D, 0x06, 0x20]
      { base with a := 0xFF, ppu := { base.ppu with vramAddr := 0x0012 } }).map
      (fun t => (t.pc, t.ppu.vramAddr, t.ppu.addrW, t.p, t.cyc)) =
    some (0x8003, 0x3F12, true, 0x20, 11) := by decide

theorem test_T208_lda :
    (one [0xAD, 0x07, 0x20]
      { base with ppu := { base.ppu with vramAddr := 0x2000, readBuf := 0x11, vram := [(0x000, 0x22)] } }).map
      (fun t => ((t.a, t.pc, t.ppu.vramAddr, t.ppu.readBuf), t.p, t.cyc)) =
    some ((0x11, 0x8003, 0x2001, 0x22), 0x20, 11) := by decide

theorem test_T211_sta :
    (one [0x8D, 0x07, 0x20]
      { base with a := 0x66, ppu := { base.ppu with vramAddr := 0x3FFF } }).map
      (fun t => (t.pc, t.ppu.palette.read 0x01F, t.ppu.vramAddr, t.p, t.cyc)) =
    some (0x8003, 0x66, 0x0000, 0x20, 11) := by decide

theorem test_T214_lda :
    (one [0xAD, 0x16, 0x40]
      { base with pad := { base.pad with buttons := 0x02, index := 1 } }).map
      (fun t => (t.a, t.pc, t.pad.index, t.p, t.cyc)) =
    some (0x01, 0x8003, 2, 0x20, 11) := by decide

theorem test_T230_sta :
    (one [0x8D, 0x07, 0x20]
      { base with
        a := 0x5A, ppu := { base.ppu with vramAddr := 0x0100 },
        cart := { base.cart with header := { base.cart.header with chrBanks := 1 } } }).map
      (fun t => ((t.pc, t.ppu.vramAddr, t.illegalWrite, t.illegalWrites), t.p, t.cyc)) =
    some ((0x8003, 0x0101, true, [0x0100]), 0x20, 11) := by decide

theorem test_T232_sta :
    (one [0x8D, 0x07, 0x20]
      { base with
        a := 0x77, ppu := { base.ppu with vramAddr := 0x2C05 },
        cart := { base.cart with header := { base.cart.header with mirroring := .horizontal } } }).map
      (fun t => (t.pc, t.ppu.vram.read 0x405, t.ppu.vramAddr, t.p, t.cyc)) =
    some (0x8003, 0x77, 0x2C06, 0x20, 11) := by decide

theorem test_T236_sta :
    (one [0x8D, 0x07, 0x20]
      { base with a := 0x0F, ppu := { base.ppu with vramAddr := 0x3F10 } }).map
      (fun t => (t.pc, t.ppu.palette.read 0x000, t.ppu.vramAddr, t.p, t.cyc)) =
    some (0x8003, 0x0F, 0x3F11, 0x20, 11) := by decide

/-- T192, R285. -/
theorem test_T192_unsupported :
    (match executeSingle (State.holding base [0xAB, 0x00]) with | .refused r => some r | _ => none) =
    some (.unsupportedOpcode 0xAB) := by decide

/-! ## Whole Clock steps -/

/-- The trace tuple of R332 and the frame count after one Clock step. -/
def clocked (inp : HostInput) (s : State) : Option (State × Nat) :=
  match clock inp s with
  | .next r => some r
  | _ => none

/-- An IRQ line held high for one step. -/
def irqHigh : HostInput := { irqLine := true, draws := [], buttons := none }

set_option maxRecDepth 20000 in
/-- S4: NOP, then the IRQ entry. -/
theorem test_S4_irq_entry :
    (clocked irqHigh (State.holding base [0xEA])).map
      (fun r => ((r.1.pc, r.1.sp, r.1.p, r.1.cyc), r.1.ram.read 0x01FB, r.1.ram.read 0x01FC, r.1.ram.read 0x01FD)) =
    some ((0x9000, 0xFA, 0x24, 17), 0x20, 0x01, 0x80) := by decide

set_option maxRecDepth 20000 in
/-- S5: SEI masks the IRQ of its own step. -/
theorem test_S5_sei_masks_at_once :
    (clocked irqHigh (State.holding base [0x78])).map (fun r => (r.1.pc, r.1.sp, r.1.p, r.1.cyc)) =
    some (0x8001, 0xFD, 0x24, 9) := by decide

set_option maxRecDepth 20000 in
/-- S6: a pending NMI is taken and the IRQ waits. -/
theorem test_S6_nmi_before_irq :
    (clocked irqHigh (State.holding { base with ppu := { base.ppu with nmiPending := true } } [0xEA])).map
      (fun r => (r.1.pc, r.1.sp, r.1.p, r.1.cyc, r.1.ppu.nmiPending)) =
    some (0x9100, 0xFA, 0x24, 17, false) := by decide

set_option maxRecDepth 20000 in
/-- R341, R320: the tick into (241, 1) sets VBlank and the step enters the NMI; 6 ticks, then 24. -/
theorem test_vblank_nmi :
    (clocked HostInput.default
      (State.holding { base with ppu := { base.ppu with ctrl := 0x80, scanline := 241 } } [0xEA])).map
      (fun r => (r.1.pc, r.1.cyc, r.1.ppu.status, r.1.ppu.scanline, r.1.ppu.dot, r.1.ppu.nmiPending)) =
    some (0x9100, 17, 0x80, 241, 30, false) := by decide

set_option maxRecDepth 20000 in
/-- R342: the frame wrap clears VBlank and SpriteZeroHit, keeps SpriteOverflow and is one frame event. -/
theorem test_frame_wrap :
    (clocked HostInput.default
      (State.holding { base with ppu := { base.ppu with status := 0xE0, scanline := 260, dot := 338 } } [0xEA])).map
      (fun r => (r.1.ppu.status, r.1.ppu.scanline, r.1.ppu.dot, r.2)) =
    some (0x20, -1, 3, 1) := by decide

/-- R81: the stall is 513 on an even counter and 514 on an odd one. -/
theorem test_dma_stall : dmaStall 14 = 513 ∧ dmaStall 13 = 514 := by decide

set_option maxRecDepth 20000 in
/-- The next step after a placed word runs it: STA $0210 from the reset state, its last byte bits 23:16. -/
theorem test_placed_word_runs :
    (match step ((State.reset.setA 0x42).withFetchWord 24 0x02108D) with
      | .next t => some (t.pc, t.ram.read 0x0210, t.cyc)
      | _ => none) = some (0x0003, 0x42, 11) := by decide

/-! ## Witnesses: states and operands that meet the statements' hypotheses

Where a statement asks only for `s.refused = none` or `s.Ready`, `State.reset` meets it. -/

theorem witness_ready : State.reset.refused = none ∧ State.reset.Ready := by decide

/-- An image of one PRG bank and CHR RAM with a trainer: it meets every premise of the last clause of `Create`. -/
def image : List Byte :=
  [0x4E, 0x45, 0x53, 0x1A, 1, 0, 0x05, 0x00, 0, 0, 0, 0, 0, 0, 0, 0] ++ List.replicate 16896 0x60

theorem witness_create_ok :
    16 ≤ image.length ∧ image.take 4 = [0x4E, 0x45, 0x53, 0x1A] ∧ (image.getD 4 0).toNat = 1 ∧
    (image.getD 5 0).toNat = 0 ∧ ((image.getD 7 0 &&& 0xF0#8) ||| (image.getD 6 0 >>> 4)) = 0 ∧
    (image.getD 6 0).getLsbD 2 = true ∧ 16 + 512 + 16384 * 1 + 8192 * 0 ≤ image.length := by
  have h : image.length = 16912 := by rw [image, List.length_append, List.length_replicate]; rfl
  refine ⟨?_, rfl, rfl, rfl, rfl, rfl, ?_⟩ <;> omega

/-- The same with one byte less: its last premise fails by one, and it is Truncated. -/
theorem witness_create_truncated :
    image.dropLast.length < 16 + 512 + 16384 * 1 + 8192 * 0 ∧ 16 ≤ image.dropLast.length := by
  have h : image.length = 16912 := by rw [image, List.length_append, List.length_replicate]; rfl
  rw [List.length_dropLast, h]
  decide

/-- Fifteen bytes; a wrong fourth byte; mapper 1; three PRG banks. -/
theorem witness_create_errors :
    (List.replicate 15 (0 : Byte)).length < 16 ∧
    (List.replicate 16 (0 : Byte)).take 4 ≠ [0x4E, 0x45, 0x53, 0x1A] ∧
    ((0x00#8 &&& 0xF0#8) ||| (0x10#8 >>> 4)) ≠ 0 ∧ (0x03 : Byte).toNat ≠ 1 ∧ (0x03 : Byte).toNat ≠ 2 := by decide

/-- One CHR bank: the CHR ROM clause. -/
theorem witness_create_chr_rom : 0 < (0x01 : Byte).toNat ∧ (8191 : Nat) < 8192 * (0x01 : Byte).toNat := by decide

theorem witness_well_formed :
    (Instr.bpl (-128)).wf = true ∧ (Instr.beq 127).wf = true ∧ (Instr.ldaAbs 0xFFFF).wf = true := by decide

theorem witness_decodes : decode [0x8D, 0x00, 0x02, 0xEA] = .ok (.staAbs 0x0200, [0xEA]) := by decide

theorem witness_same_opcode :
    (Instr.ldaImm 1).opcode = (Instr.ldaImm 2).opcode ∧ (decodeOp 0x02 0 0).operation = .unsupported := by decide

/-- Three fetched bytes that encode a well-formed instruction, with no refusal before or after. -/
theorem witness_step_runs :
    let s0 := (State.holding base [0x8D, 0x00, 0x02]).takeInput.setDmaThisStep false
    base.refused = none ∧ (Instr.staAbs 0x0200).wf = true ∧
    State.fetchBytes (encode (.staAbs 0x0200)).length s0 = encode (.staAbs 0x0200) ∧
    (State.afterFetch (encode (.staAbs 0x0200)).length s0).refused = none := by decide

/-- The first and the last PC from which three bytes of memory follow, also across 0xFFFF. -/
theorem witness_fetch_memory :
    let holds (pc : Addr) : Bool := base.holdsByte pc && base.holdsByte (pc + 1) && base.holdsByte (pc + 2)
    holds 0x0000 = true ∧ holds 0x1FFD = true ∧ holds 0x8000 = true ∧ holds 0xFFFF = true := by decide

theorem witness_clock_next : ∃ t, executeSingle ((State.holding base [0xEA]).setDmaThisStep false) = .next t :=
  ⟨_, rfl⟩

/-- A step with OAM DMA, which the stall clause is about. -/
theorem witness_clock_dma (s : State) : (s.cpuWrite 0x4014 0x02).dmaThisStep = true := rfl

theorem witness_clock_refuses :
    (State.holding base [0x02]).refused = none ∧
    clock HostInput.default (State.holding base [0x02]) = .refused (.unsupportedOpcode 0x02) := ⟨rfl, rfl⟩

theorem witness_refusal_held :
    ({ base with refused := some (.unsupportedOpcode 0x02) } : State).refused = some (.unsupportedOpcode 0x02) := rfl

theorem witness_ready_steps :
    (State.holding base [0xF2]).Ready ∧
    ((State.holding base [0xF2]).takeInput.setDmaThisStep false).fetchByte ∈ unsupportedBytes ∧
    ((State.holding base [0xEB]).takeInput.setDmaThisStep false).fetchByte ∉ unsupportedBytes := by decide

theorem witness_modes :
    modeOf 0xE8 = .implied ∧ modeOf 0x0A = .accumulator ∧ modeOf 0xA9 = .immediate ∧ modeOf 0xA5 = .zeroPage ∧
    modeOf 0xB5 = .zeroPageX ∧ modeOf 0xB6 = .zeroPageY ∧ modeOf 0x90 = .relative ∧ modeOf 0xAD = .absolute ∧
    modeOf 0xBD = .absoluteX ∧ modeOf 0xB9 = .absoluteY ∧ modeOf 0x6C = .indirect ∧ modeOf 0xA1 = .indexedIndirectX ∧
    modeOf 0xB1 = .indirectIndexedY := by decide

/-- Operands of each of the three clauses. -/
theorem witness_operands :
    (resolve .accumulator base).ea = none ∧ (resolve (.zeroPage 0xFF) base).ea = some 0x00FF ∧
    (∀ v, Operand.zeroPage 0xFF ≠ .immediate v) ∧ Operand.immediate 3 = .immediate 3 := by
  refine ⟨rfl, rfl, ?_, rfl⟩
  intro v h
  cases h

/-- An instruction that is no branch, crosses a page and has a next state. -/
theorem witness_cycles :
    (∃ t, exec (.ldaAbsX 0x12F0) { base with x := 0x20 } = .next t) ∧
    (resolve (Instr.ldaAbsX 0x12F0).operand { base with x := 0x20 }).crossed = true ∧
    ∀ off, (Instr.ldaAbsX 0x12F0).operand ≠ .relative off := by
  refine ⟨⟨_, rfl⟩, rfl, ?_⟩
  intro off h
  cases h

/-- One instruction of every operation the family statements speak of. -/
theorem witness_operations :
    [Instr.ldaImm 0, .ldxImm 0, .ldyImm 0, .staZp 0, .stxZp 0, .styZp 0, .incZp 0, .decZp 0, .adcImm 0, .sbcImm 0,
      .andImm 0, .eorImm 0, .oraImm 0, .aslAcc, .lsrAcc, .rolAcc, .rorAcc, .cmpImm 0, .cpxImm 0, .cpyImm 0, .bitZp 0,
      .laxZp 0, .saxZp 0, .dcpZp 0, .isbZp 0, .sloZp 0, .rlaZp 0, .sreZp 0, .rraZp 0, .nop1A,
      .jam02].map Instr.operation =
    [.lda, .ldx, .ldy, .sta, .stx, .sty, .inc, .dec, .adc, .sbc, .and, .eor, .ora, .asl, .lsr, .rol, .ror, .cmp, .cpx,
      .cpy, .bit, .lax, .sax, .dcp, .isb, .slo, .rla, .sre, .rra, .nop, .unsupported] := by decide

/-- The modes that split the read-modify-write and the NOP statements. -/
theorem witness_mode_clauses :
    Instr.aslAcc.mode = .accumulator ∧ (Instr.aslZp 0).mode ≠ .accumulator ∧ Instr.nop1A.mode = .implied ∧
    (Instr.nopImm80 0).mode = .immediate ∧ (Instr.nopAbsX1C 0).mode ≠ .implied ∧
    (Instr.nopAbsX1C 0).mode ≠ .immediate := by decide

theorem witness_unsupported :
    Instr.sbxCB.opcode ∈ unsupportedBytes ∧ Instr.jam02.opcode ∈ unsupportedBytes ∧
    (State.holding base [0xCB]).Ready ∧ (State.holding base [0xCB]).fetchByte ∈ unsupportedBytes := by decide

/-- A canonical memory and the last index of its size; two memories in canonical form that read alike. -/
theorem witness_memory :
    Memory.Canonical [(3, 0x01), (2047, 0x02)] Config.ramSize ∧ 2047 < Config.ramSize ∧
    Memory.wf [(3, 0x01)] = true ∧ ∀ i, Memory.read [(3, 0x01)] i = Memory.read [(3, 0x01)] i := by
  refine ⟨by decide, by decide, by decide, fun _ => rfl⟩

theorem witness_ram_bounds : (0x1FFF : Addr).toNat ≤ 0x1FFF ∧ (0x0000 : Addr).toNat ≤ 0x1FFF := by decide

/-- Each location whose read has an effect, with the last mirror of 0x2002 and 0x2007. -/
theorem witness_read_effects :
    let s : State := { base with ppu := { base.ppu with status := 0x80 } }
    s.afterRead 0x2002 ≠ s ∧ s.afterRead 0x2007 ≠ s ∧ s.afterRead 0x3FFA ≠ s ∧ s.afterRead 0x3FFF ≠ s ∧
    s.afterRead 0x4016 ≠ s := by decide

/-- Both sides of the inert ranges' ends, and PRG RAM absent and present. -/
theorem witness_inert_writes :
    let r : State := { base with params := { base.params with prgRamPresent := true } }
    ([0x2002, 0x3FFA, 0x4000, 0x4013, 0x4015, 0x4017, 0x5FFF, 0x6000, 0x7FFF].all fun a =>
      base.cpuWrite a 0xFF = base) = true ∧
    ([0x1FFF, 0x2000, 0x2001, 0x2003, 0x3FFF, 0x4016, 0x8000, 0xFFFF].all fun a =>
      base.cpuWrite a 0xFF ≠ base) = true ∧
    r.cpuWrite 0x6000 0xFF ≠ r ∧ r.cpuWrite 0x7FFF 0xFF ≠ r ∧ r.cpuWrite 0x5FFF 0xFF = r := by
  refine ⟨by decide, by decide, by decide, by decide, by decide⟩

theorem witness_dma_pages :
    (0x1F : Byte).toNat < 0x20 ∧ 0x41 ≤ (0x41 : Byte).toNat ∧ 0x41 ≤ (0xFF : Byte).toNat := by decide

/-- The ends of the three PPU ranges. -/
theorem witness_ppu_ranges :
    (0x1FFF : VAddr).toNat ≤ 0x1FFF ∧ 0x2000 ≤ (0x2000 : VAddr).toNat ∧ (0x3EFF : VAddr).toNat ≤ 0x3EFF ∧
    0x3F00 ≤ (0x3F00 : VAddr).toNat ∧ 0x3F00 ≤ (0x3FFF : VAddr).toNat := by decide

/-- The base state's cartridge under another mirroring mode. -/
def mirrored (m : Mirroring) : State :=
  { base with cart := { base.cart with header := { base.cart.header with mirroring := m } } }

theorem witness_mirroring :
    (mirrored .vertical).mirroring = .vertical ∧ (mirrored .horizontal).mirroring = .horizontal ∧
    (mirrored .fourScreen).mirroring = .fourScreen ∧ (mirrored .fourScreen).refused = none := by decide

/-- Aliases: 0x2805 and 0x2005 under Vertical, 0x2405 and 0x2005 under Horizontal, 0x3F10 and 0x3F00, 0x3F21 and
0x3F01. -/
theorem witness_aliases :
    (0x2805 : VAddr).toNat % 0x0800 = (0x2005 : VAddr).toNat % 0x0800 ∧
    (0x2405 : VAddr).toNat % 0x0400 = (0x2005 : VAddr).toNat % 0x0400 ∧
    (0x2405 : VAddr).toNat / 0x0800 % 2 = (0x2005 : VAddr).toNat / 0x0800 % 2 ∧
    (0x3F10 : VAddr).toNat % 4 = 0 ∧ (0x3F00 : VAddr).toNat % 4 = 0 ∧
    (0x3F10 : VAddr).toNat % 16 = (0x3F00 : VAddr).toNat % 16 ∧
    (0x3F21 : VAddr).toNat % 32 = (0x3F01 : VAddr).toNat % 32 := by decide

/-- 0x2007 and its last mirror, and a VRAM address at each end of the refused range and beside it. -/
theorem witness_four_screen :
    (0x2007 : Addr).toNat % 8 = 7 ∧ (0x3FFF : Addr).toNat % 8 = 7 ∧ (0x3FFF : Addr).toNat ≤ 0x3FFF ∧
    0x2000 ≤ (0x2000 : VAddr).toNat ∧ (0x3EFF : VAddr).toNat ≤ 0x3EFF ∧ (0x1FFF : VAddr).toNat < 0x2000 ∧
    0x3EFF < (0x3F00 : VAddr).toNat := by decide

/-- The data register's two cases, and the registers that read 0. -/
theorem witness_ppu_registers :
    ¬0x3F00 ≤ base.ppu.vramAddr.toNat ∧ base.mirroring ≠ .fourScreen ∧
    0x3F00 ≤ ({ base.ppu with vramAddr := 0x3F00 } : Ppu).vramAddr.toNat := by decide

/-- A controller in each of its three cases, at the boundary of its index. -/
theorem witness_controller :
    let c (strobe : Bool) (index : Nat) : Controller := { buttons := 0xA5, strobe := strobe, index := index }
    (c true 0).strobe = true ∧ (c false 8).strobe = false ∧ 7 < (c false 8).index ∧ (c false 7).index ≤ 7 ∧
    (0x01 : Byte).getLsbD 0 = true ∧ (0xFE : Byte).getLsbD 0 = false := by decide

/-- Raster positions at both ends of the range, and visible dots at both ends. -/
theorem witness_raster :
    RasterInRange base.ppu ∧ RasterInRange { base.ppu with scanline := 260, dot := 340 } ∧
    (0 : Int) ≤ 0 ∧ (239 : Int) ≤ 239 ∧ 340 ≤ 340 := by
  refine ⟨⟨?_, ?_, ?_⟩, ⟨?_, ?_, ?_⟩, ?_, ?_, ?_⟩ <;> decide

set_option maxRecDepth 20000 in
/-- Two Clock steps that run. -/
theorem witness_clocks :
    (runClocks [irqHigh, HostInput.default]
      (State.holding { base with cart := { base.cart with prg := [(0x3FFF, 0x80)] } } [0xEA, 0xEA])).isSome = true := by
  decide

/-- A state that meets the invariant and is not the reset state, and a step from it. -/
def busy : State :=
  { State.holding base [0xE6, 0x10] with
    ram := [(0x10, 0x7F)], illegalWrite := true, illegalWrites := [0x8000], p := 0xEF,
    ppu := { base.ppu with status := 0xE0, scanline := 260, dot := 340, oam := [(255, 1)] },
    pad := { buttons := 0xFF, strobe := false, index := 8 } }

theorem witness_invariant : busy.Inv := by
  constructor
  case ppu => constructor <;> decide
  all_goals decide

set_option maxRecDepth 20000 in
theorem witness_invariant_steps :
    (match step busy with | .next t => some (t.ram.read 0x10, t.ppu.scanline, t.ppu.status) | _ => none) =
    some (0x80, -1, 0x20) := by decide

set_option maxRecDepth 20000 in
/-- CHR ROM and absent PRG RAM, in a state that steps. -/
theorem witness_step_rom :
    let s : State := { busy with cart := { busy.cart with header := { busy.cart.header with chrBanks := 1 } } }
    s.cart.header.chrBanks ≠ 0 ∧ s.params.prgRamPresent = false ∧
    (match step s with | .next _ => true | _ => false) = true := by decide

set_option maxRecDepth 20000 in
/-- The buttons after a step: an empty queue, a head that names none, a head that names some; and a Clock alone. -/
theorem witness_step_buttons :
    let s : State := { busy with pad := { busy.pad with buttons := 0x12 } }
    let after (l : List HostInput) : Option Byte :=
      match step { s with inputs := l } with | .next t => some t.pad.buttons | _ => none
    after [] = some 0x12 ∧ after [HostInput.default] = some 0x12 ∧
    after [{ HostInput.default with buttons := some 0xA5 }, HostInput.default] = some 0xA5 ∧
    (match clock { HostInput.default with buttons := some 0xA5 } s with | .next r => some r.1.pad.buttons | _ => none) =
      some 0x12 := by decide

/-- For the frames: NOP writes no register and no flag and stores nothing, and has a next state; a store whose byte is
not the one read; PLP and RTI. -/
theorem witness_frames :
    exec .nop base = .next { base with cyc := 9 } ∧ writesA .nop = false ∧ writesX .nop = false ∧
    writesY .nop = false ∧ writesSp .nop = false ∧ writesPc .nop = false ∧
    (∀ bit < 8, writesFlag Instr.nop.operation bit = false) ∧ storedAddrs .nop base = [] ∧
    base.holdsByte 0x0010 = true ∧ storedAddrs (.staZp 0x11) base = [0x0011] ∧
    base.busTarget 0x0011 ≠ base.busTarget 0x0010 ∧ Instr.plp.operation = .plp ∧ Instr.rti.operation = .rti := by
  refine ⟨rfl, ?_⟩
  decide

/-- An instruction that reads a pointer and stores, all in memory and below 0x8000. -/
theorem witness_memory_accesses :
    let s : State := { base with ram := [(0x10, 0x34), (0x11, 0x02)] }
    (match exec (.sloIndY 0x10) s with | .next _ => true | _ => false) = true ∧
    readAddrs (.sloIndY 0x10) s = [0x0234] ∧ storedAddrs (.sloIndY 0x10) s = [0x0234] ∧ s.holdsByte 0x0234 = true ∧
    (0x0234 : Addr).toNat < 0x8000 := by
  refine ⟨?_, ?_, ?_, ?_, ?_⟩ <;> decide

/-- Two different states that agree but for what nothing reads. -/
theorem witness_unread :
    let s' : State := { base with ppu := { base.ppu with mask := 0x1E, scrollX := 3 }, illegalWrite := true }
    withoutUnread base = withoutUnread s' ∧ base ≠ s' := by decide

end Sys2Proof.Tests
end

section
/-!
PROOF. Reading an operand (spec/40_addressing_modes.md R156, spec/00_scope.md R10): an equation for `loadOperand` in each
of its three cases, and from them the obligation of the scope family.
-/

namespace Sys2Proof.Machine

/-- The modes with no effective address are Implied and Accumulator (R141, R142). -/
theorem resolve_ea_eq_none_iff (o : Operand) (s : State) :
    (resolve o s).ea = none ↔ o = .implied ∨ o = .accumulator := by
  constructor
  · intro h
    by_contra ho
    obtain ⟨h1, h2⟩ := not_or.mp ho
    obtain ⟨ea, hea⟩ := resolve_ea o s h1 h2
    simp [h] at hea
  · rintro (rfl | rfl) <;> rfl

/-- Immediate (R143): the byte the fetch has read, and no bus read. -/
theorem loadOperand_immediate (v : Byte) (s : State) :
    loadOperand (.immediate v) s =
      { ea := (resolve (.immediate v) s).ea, crossed := false, value := v, st := s } := rfl

/-- With no effective address M is A (R10), and no bus read is made. -/
theorem loadOperand_of_ea_none {o : Operand} {s : State} (h : (resolve o s).ea = none) :
    loadOperand o s = { ea := none, crossed := false, value := s.a, st := s } := by
  rcases (resolve_ea_eq_none_iff o s).mp h with rfl | rfl <;> rfl

/-- Any other operand is one bus read at `ea`, in the state the mode's own reads leave (R156). -/
theorem loadOperand_of_ea_some {o : Operand} {s : State} {ea : Addr} (ho : ∀ v, o ≠ .immediate v)
    (h : (resolve o s).ea = some ea) :
    loadOperand o s =
      { ea := some ea, crossed := (resolve o s).crossed, value := (resolve o s).st.cpuRead ea,
        st := (resolve o s).st.afterRead ea } := by
  unfold loadOperand
  split
  case h_1 v => exact absurd rfl (ho v)
  case h_2 => simp only [h]

/-- Settles O16: one equation of `loadOperand` for each clause. -/
theorem operandIsReadOnce : Obligations.OperandIsReadOnce := by
  intro o s
  refine ⟨?immediate, loadOperand_of_ea_none, fun ho ea => loadOperand_of_ea_some ho⟩
  case immediate =>
    rintro v rfl
    exact loadOperand_immediate v s

end Sys2Proof.Machine
end

section
/-!
PROOF. What an instruction leaves of the CPU registers (spec/10_state.md R20 to R25) and of the flags (R29): each shape
of an instruction is its last function applied to a state whose registers are those before the instruction, so both
frames are read off those functions, one case per operation.
-/

open Sys2Proof.Rules

namespace Sys2Proof.Machine

/-! ## The CPU registers of a state -/

/-- The CPU registers of R20 to R25. -/
structure Registers where
  a : Byte
  x : Byte
  y : Byte
  sp : Byte
  p : Byte
  pc : Addr

/-- The CPU registers a state holds. -/
def State.registers (s : State) : Registers := { a := s.a, x := s.x, y := s.y, sp := s.sp, p := s.p, pc := s.pc }

theorem ReadFrame.registers {s t : State} (h : ReadFrame s t) : t.registers = s.registers := by
  simp only [State.registers, h.a, h.x, h.y, h.sp, h.p, h.pc]

theorem WriteFrame.registers {s t : State} (h : WriteFrame s t) : t.registers = s.registers := by
  simp only [State.registers, h.a, h.x, h.y, h.sp, h.p, h.pc]

/-- Writing the operand touches no register but A, and A only where there is no effective address (R142). -/
theorem writeOperand_registers (s : State) (ea : Option Addr) (v : Byte) :
    (s.writeOperand ea v).registers = { s.registers with a := if ea = none then v else s.a } := by
  cases ea with
  | none => rfl
  | some addr => exact (cpuWrite_frame s addr v).registers

/-- A read instruction is its function applied to a state with the registers it began with. -/
theorem readEffect_registers (o : Operand) (base : Nat) (cares : Bool) (f : State → Byte → State) (s : State) :
    ∃ t m, t.registers = s.registers ∧ (readEffect o base cares f s).registers = (f t m).registers :=
  ⟨_, _, (loadOperand_frame o s).registers, rfl⟩

/-- A store writes no register but A, and A only where there is no effective address. -/
theorem storeEffect_registers (o : Operand) (base : Nat) (v : State → Byte) (s : State) :
    ∃ r, (storeEffect o base v s).registers = { s.registers with a := if (resolve o s).ea = none then r else s.a } := by
  refine ⟨v (resolve o s).st, (writeOperand_registers _ _ _).trans ?_⟩
  rw [(resolve_frame o s).registers, (resolve_frame o s).a]

/-- A read-modify-write is its function applied to a state with the registers it began with, but for the A that
Accumulator mode writes. -/
theorem modifyEffect_registers (o : Operand) (base : Nat) (g : State → Byte → Byte)
    (f : State → Byte → Byte → State) (s : State) :
    ∃ t v r, t.registers = { s.registers with a := if (resolve o s).ea = none then r else s.a } ∧
      (modifyEffect o base g f s).registers = (f t v r).registers := by
  refine ⟨_, _, _, (writeOperand_registers _ _ _).trans ?_, rfl⟩
  rw [(loadOperand_frame o s).registers, (loadOperand_frame o s).a, loadOperand_ea]

/-- What an unofficial NOP does with its operand is at most a bus read (R280). -/
theorem afterNopRead_frame (s : State) (ea : Option Addr) : ReadFrame s (s.afterNopRead ea) := by
  unfold State.afterNopRead
  split
  · split
    · exact afterRead_frame s _
    · exact ReadFrame.refl s
  · exact ReadFrame.refl s

/-! ## The frame of the registers, R20 to R25 -/

/-- `t` holds the registers of `s` but for those the instruction is said to write. -/
def KeepsRegisters (i : Instr) (s t : Registers) : Prop :=
  (writesA i = false → t.a = s.a) ∧ (writesX i = false → t.x = s.x) ∧ (writesY i = false → t.y = s.y) ∧
  (writesSp i = false → t.sp = s.sp) ∧ (writesPc i = false → t.pc = s.pc)

/-- The operations that write a result to their operand (R156). -/
def writesBack : Operation → Bool
  | .sta | .stx | .sty | .sax | .asl | .lsr | .rol | .ror | .inc | .dec | .dcp | .isb | .slo | .rla | .sre
  | .rra => true
  | _ => false

/-- An instruction that writes its result to A, having no effective address, is among those said to write A. -/
theorem writesA_of_no_address (i : Instr) (s : State) (hw : writesBack i.operation = true)
    (h : (resolve i.operand s).ea = none) : writesA i = true := by
  have table : (writesBack i.operation && (i.mode == .implied || i.mode == .accumulator) && !writesA i) = false := by
    cases i <;> rfl
  have hm : i.mode = .implied ∨ i.mode = .accumulator := by
    unfold Instr.mode
    rcases (resolve_ea_eq_none_iff _ _).mp h with ho | ho <;> simp [ho, Operand.mode]
  rcases hm with hm | hm <;> simpa [hw, hm] using table

section
variable {i : Instr} {s : State} (o : Operand) (base : Nat)

theorem readEffect_keepsRegisters (cares : Bool) {f : State → Byte → State}
    (hf : ∀ t m, KeepsRegisters i t.registers (f t m).registers) :
    KeepsRegisters i s.registers (readEffect o base cares f s).registers := by
  obtain ⟨t, m, ht, he⟩ := readEffect_registers o base cares f s
  rw [he, ← ht]
  exact hf t m

/-- A write to A is no breach of the frame where the instruction is said to write A. -/
theorem KeepsRegisters.of_write_a {r u : Registers} {c : Prop} [Decidable c] (v : Byte) (hA : c → writesA i = true)
    (h : KeepsRegisters i { r with a := if c then v else r.a } u) : KeepsRegisters i r u := by
  obtain ⟨ha, hrest⟩ := h
  refine ⟨fun hw => ?_, hrest⟩
  rw [ha hw]
  exact if_neg fun hc => by simp [hA hc] at hw

theorem storeEffect_keepsRegisters (v : State → Byte) (hA : (resolve o s).ea = none → writesA i = true) :
    KeepsRegisters i s.registers (storeEffect o base v s).registers := by
  obtain ⟨r, he⟩ := storeEffect_registers o base v s
  rw [he]
  exact .of_write_a r hA ⟨fun _ => rfl, fun _ => rfl, fun _ => rfl, fun _ => rfl, fun _ => rfl⟩

theorem modifyEffect_keepsRegisters {g : State → Byte → Byte} {f : State → Byte → Byte → State}
    (hA : (resolve o s).ea = none → writesA i = true)
    (hf : ∀ t v r, KeepsRegisters i t.registers (f t v r).registers) :
    KeepsRegisters i s.registers (modifyEffect o base g f s).registers := by
  obtain ⟨t, v, r, ht, he⟩ := modifyEffect_registers o base g f s
  have h := hf t v r
  rw [ht, ← he] at h
  exact .of_write_a r hA h

end

/-- The register frame of every operation. -/
theorem effect_keepsRegisters (i : Instr) (s : State) :
    KeepsRegisters i s.registers (effect i.operation i.operand s).registers := by
  have hA := writesA_of_no_address i s
  have hr := (resolve_frame i.operand s).registers
  cases hop : i.operation
  case lda | ldx | ldy | adc | sbc | and | eor | ora | cmp | cpx | cpy | bit | lax =>
    refine readEffect_keepsRegisters _ _ _ fun t m => ?_
    simp [KeepsRegisters, State.registers, hop, writesA, writesX, writesY, writesSp, writesPc, State.lda, State.ldx,
      State.ldy, State.adc, State.sbc, State.subCore, State.addCore, State.and, State.eor, State.ora, State.cmp,
      State.cpx, State.cpy, State.compare, State.bit, State.bitTest, State.lax]
  case sta | stx | sty | sax => exact storeEffect_keepsRegisters _ _ _ (hA (by rw [hop]; rfl))
  case asl | lsr | rol | ror | inc | dec | dcp | isb | slo | rla | sre | rra =>
    refine modifyEffect_keepsRegisters _ _ (hA (by rw [hop]; rfl)) fun t v r => ?_
    simp [KeepsRegisters, State.registers, hop, writesA, writesX, writesY, writesSp, writesPc, State.aslAfter,
      State.lsrAfter, State.rolAfter, State.rorAfter, State.incAfter, State.decAfter, State.dcpAfter, State.compare,
      State.isbAfter, State.subCore, State.addCore, State.sloAfter, State.rlaAfter, State.sreAfter, State.rraAfter]
  case bcc | bcs | beq | bmi | bne | bpl | bvc | bvs =>
    simp only [effect, branchEffect]
    split <;> simp [KeepsRegisters, State.registers, hop, writesPc]
  case jmp | jsr =>
    simp only [State.registers, Registers.mk.injEq] at hr
    cases h : (resolve i.operand s).ea <;>
      simp [effect, State.jumpTo, push16_eq, h, hr, KeepsRegisters, State.registers, hop, writesSp, writesPc]
  case nop =>
    have hn := (afterNopRead_frame (resolve i.operand s).st (resolve i.operand s).ea).registers.trans hr
    have he : (effect .nop i.operand s).registers = s.registers := by
      simp only [effect]
      split
      · exact hn
      · exact hr
    simp [KeepsRegisters, he]
  case tax | tay | tsx | txa | txs | tya | inx | iny | dex | dey | pha | php | pla | plp | clc | cld | cli | clv | sec
      | sed | sei | rts | brk | rti | unsupported =>
    simp [effect, KeepsRegisters, State.registers, hop, writesA, writesX, writesY, writesSp, writesPc, State.tax,
      State.tay, State.tsx, State.txa, State.txs, State.tya, State.inx, State.iny, State.dex, State.dey, pha_eq, php_eq,
      pla_eq, plp_eq, rts_eq, brk_eq, rti_eq]

/-- Settles O55: the register frame of the instruction's effect. -/
theorem instructionsLeaveOtherRegisters : Obligations.InstructionsLeaveOtherRegisters := by
  intro i s t h
  obtain ⟨-, rfl, -⟩ := exec_next h
  exact effect_keepsRegisters i s

/-! ## The frame of the flags, R29 -/

/-- What R29's table says of a bit it does not give to an operation: which rows the bit is not. -/
theorem ne_of_writesFlag_false {op : Operation} {bit : Nat} (hb : bit < 8) (h : writesFlag op bit = false) :
    (writesC op = true → bit ≠ 0) ∧ (writesNZ op = true → bit ≠ 1 ∧ bit ≠ 7) ∧
    (op = .sei ∨ op = .cli ∨ op = .brk → bit ≠ 2) ∧ (op = .sed ∨ op = .cld → bit ≠ 3) ∧
    (writesV op = true → bit ≠ 6) ∧ op ≠ .plp ∧ op ≠ .rti := by
  have absurd_row {w : Bool} (hw : w = true) (h : w = false) : False := Bool.false_ne_true (h.symm.trans hw)
  refine ⟨?c, ?nz, ?i, ?d, ?v, ?plp, ?rti⟩
  case c => rintro hw rfl; exact absurd_row hw h
  case nz => intro hw; constructor <;> rintro rfl <;> exact absurd_row hw h
  case i => rintro (rfl | rfl | rfl) rfl <;> cases h
  case d => rintro (rfl | rfl) rfl <;> cases h
  case v => rintro hw rfl; exact absurd_row hw h
  all_goals rintro rfl; interval_cases bit <;> cases h

theorem nzBits_keeps {p v : Byte} {bit : Nat} (h : bit ≠ 1 ∧ bit ≠ 7) :
    (nzBits p v).getLsbD bit = p.getLsbD bit := by
  rw [nzBits_bits, if_neg h.2, if_neg h.1]

theorem setFlag_keeps {s : State} {n bit : Nat} {b : Bool} (hn : n < 8) (h : bit ≠ n) :
    (s.setFlag n b).p.getLsbD bit = s.p.getLsbD bit := by
  rw [setFlag_p, setBit_bits _ _ _ hn, if_neg h]

theorem addCore_keeps {s : State} {m : Byte} {bit : Nat} (hc : bit ≠ 0) (hnz : bit ≠ 1 ∧ bit ≠ 7) (hv : bit ≠ 6) :
    (s.addCore m).p.getLsbD bit = s.p.getLsbD bit := by
  rw [addCore_bits, if_neg hnz.2, if_neg hnz.1, if_neg hv, if_neg hc]

theorem compare_keeps {s : State} {reg m : Byte} {bit : Nat} (hc : bit ≠ 0) (hnz : bit ≠ 1 ∧ bit ≠ 7) :
    (s.compare reg m).p.getLsbD bit = s.p.getLsbD bit := by
  rw [State.compare, setFlag_keeps (by decide) hnz.2, setFlag_keeps (by decide) hnz.1, setFlag_keeps (by decide) hc]

theorem readEffect_keepsFlag {s : State} {bit : Nat} (o : Operand) (base : Nat) (cares : Bool)
    {f : State → Byte → State} (hf : ∀ t m, (f t m).p.getLsbD bit = t.p.getLsbD bit) :
    (readEffect o base cares f s).p.getLsbD bit = s.p.getLsbD bit := by
  obtain ⟨t, m, ht, he⟩ := readEffect_registers o base cares f s
  calc (readEffect o base cares f s).p.getLsbD bit = (f t m).p.getLsbD bit := congrArg (·.p.getLsbD bit) he
    _ = t.p.getLsbD bit := hf t m
    _ = s.p.getLsbD bit := congrArg (·.p.getLsbD bit) ht

theorem storeEffect_keepsFlag {s : State} {bit : Nat} (o : Operand) (base : Nat) (v : State → Byte) :
    (storeEffect o base v s).p.getLsbD bit = s.p.getLsbD bit := by
  obtain ⟨r, he⟩ := storeEffect_registers o base v s
  exact congrArg (·.p.getLsbD bit) he

theorem modifyEffect_keepsFlag {s : State} {bit : Nat} (o : Operand) (base : Nat) {g : State → Byte → Byte}
    {f : State → Byte → Byte → State} (hf : ∀ t v r, (f t v r).p.getLsbD bit = t.p.getLsbD bit) :
    (modifyEffect o base g f s).p.getLsbD bit = s.p.getLsbD bit := by
  obtain ⟨t, v, r, ht, he⟩ := modifyEffect_registers o base g f s
  calc (modifyEffect o base g f s).p.getLsbD bit = (f t v r).p.getLsbD bit := congrArg (·.p.getLsbD bit) he
    _ = t.p.getLsbD bit := hf t v r
    _ = s.p.getLsbD bit := congrArg (·.p.getLsbD bit) ht

/-- The flag frame of every operation. -/
theorem effect_keepsFlag (op : Operation) (o : Operand) (s : State) {bit : Nat} (hb : bit < 8)
    (h : writesFlag op bit = false) : (effect op o s).p.getLsbD bit = s.p.getLsbD bit := by
  obtain ⟨hC, hNZ, hI, hD, hV, hplp, hrti⟩ := ne_of_writesFlag_false hb h
  have hr := (resolve_frame o s).p
  cases op
  case lda | ldx | ldy | and | eor | ora | lax => exact readEffect_keepsFlag _ _ _ fun _ _ => nzBits_keeps (hNZ rfl)
  case adc | sbc => exact readEffect_keepsFlag _ _ _ fun _ _ => addCore_keeps (hC rfl) (hNZ rfl) (hV rfl)
  case cmp | cpx | cpy => exact readEffect_keepsFlag _ _ _ fun _ _ => compare_keeps (hC rfl) (hNZ rfl)
  case bit =>
    refine readEffect_keepsFlag _ _ _ fun t m => ?_
    rw [State.bit, State.bitTest, setFlag_keeps (by decide) (hNZ rfl).2, setFlag_keeps (by decide) (hV rfl),
      setFlag_keeps (by decide) (hNZ rfl).1]
  case inc | dec => exact modifyEffect_keepsFlag _ _ fun _ _ _ => nzBits_keeps (hNZ rfl)
  case asl | lsr | rol | ror | slo | rla | sre =>
    exact modifyEffect_keepsFlag _ _ fun _ _ _ => (nzBits_keeps (hNZ rfl)).trans (setFlag_keeps (by decide) (hC rfl))
  case dcp => exact modifyEffect_keepsFlag _ _ fun _ _ _ => compare_keeps (hC rfl) (hNZ rfl)
  case isb => exact modifyEffect_keepsFlag _ _ fun _ _ _ => addCore_keeps (hC rfl) (hNZ rfl) (hV rfl)
  case rra =>
    exact modifyEffect_keepsFlag _ _ fun _ _ _ =>
      (addCore_keeps (hC rfl) (hNZ rfl) (hV rfl)).trans (setFlag_keeps (by decide) (hC rfl))
  case sta | stx | sty | sax => exact storeEffect_keepsFlag _ _ _
  case tax | tay | tsx | txa | tya | inx | iny | dex | dey => exact nzBits_keeps (hNZ rfl)
  case clc | sec => exact setFlag_keeps (by decide) (hC rfl)
  case cld | sed => exact setFlag_keeps (by decide) (hD (by decide))
  case cli | sei => exact setFlag_keeps (by decide) (hI (by decide))
  case clv => exact setFlag_keeps (by decide) (hV rfl)
  case bcc | bcs | beq | bmi | bne | bpl | bvc | bvs =>
    simp only [effect, branchEffect]
    split <;> rfl
  case jmp | jsr => cases h : (resolve o s).ea <;> simp [effect, State.jumpTo, push16_eq, h, hr]
  case nop =>
    simp only [effect, addCycles_p]
    split
    · rw [(afterNopRead_frame _ _).p, hr]
    · rw [hr]
  case pla => rw [effect, pla_eq]; exact nzBits_keeps (hNZ rfl)
  case brk => rw [effect, brk_eq]; exact setFlag_keeps (by decide) (hI (by decide))
  case rts => rw [effect, rts_eq]; rfl
  case pha => rw [effect, pha_eq]; rfl
  case php => rw [effect, php_eq]; rfl
  case plp => exact absurd rfl hplp
  case rti => exact absurd rfl hrti
  case txs | unsupported => rfl

/-- R183, R253: the status byte that PLP and RTI pull is stored with B clear and U set. -/
theorem pulledStatus_bits (v : Byte) :
    (pulledStatus v).getLsbD 4 = false ∧ (pulledStatus v).getLsbD 5 = true := by
  simp [pulledStatus]

/-- Settles O56: the flag frame of the instruction's effect, and the status byte PLP and RTI make of a pulled one. -/
theorem instructionsLeaveOtherFlags : Obligations.InstructionsLeaveOtherFlags := by
  intro i s t h
  obtain ⟨-, rfl, -⟩ := exec_next h
  refine ⟨fun bit hb hw => effect_keepsFlag _ _ s hb hw, fun hop => ?_⟩
  rcases hop with hop | hop <;> rw [hop]
  · rw [effect, plp_eq]; exact pulledStatus_bits _
  · rw [effect, rti_eq]; exact pulledStatus_bits _

end Sys2Proof.Machine
end

section
/-!
PROOF. What a Clock step keeps: the invariant (spec/10_state.md R27, R30, R31, R35, R41, R43 to R45, R48), and the
cartridge, the parameters and the buttons (R46 to R49). A Clock step is the fetch, the instruction and what follows it
(spec/60_exceptions.md R320), and each of the three keeps both.
-/

open Sys2Proof.Rules

namespace Sys2Proof.Machine

/-! ## A Clock step in its parts -/

/-- A Clock step that has a next state is the fetched instruction's next state, with what follows it. -/
theorem clock_next {inp : HostInput} {s : State} {r : State × Nat} (h : clock inp s = .next r) :
    ∃ u, exec (s.setDmaThisStep false).fetchInstr
        (State.afterFetch (instrLength (s.setDmaThisStep false).fetchByte) (s.setDmaThisStep false)) = .next u ∧
      r = finishClock inp (u.cyc - s.cyc) u := by
  unfold clock at h
  split at h
  · cases h
  · cases he : executeSingle (s.setDmaThisStep false) with
    | next u =>
      rw [he] at h
      injection h with h
      exact ⟨u, (executeSingle_next he).2.2, h.symm⟩
    | fault f => cases f
    | refused q => rw [he] at h; cases h

/-- A step is a Clock step with the inputs taken from the queue (R49). -/
theorem clock_of_step {s t : State} (h : step s = .next t) :
    ∃ frames, clock s.nextInput s.takeInput = .next (t, frames) := by
  unfold step clockNext at h
  cases hc : clock s.nextInput s.takeInput with
  | next r =>
    rw [hc] at h
    injection h with h
    exact ⟨r.2, by rw [← h]⟩
  | fault f => cases f
  | refused q => rw [hc] at h; cases h

/-- Everything that follows the instruction in a Clock step can do: an interrupt entry's pushes, SP, I and PC, the
PPU's ticks, and the cycles (R320). -/
def EntryFrame (s t : State) : Prop :=
  t = { s with ram := t.ram, ppu := t.ppu, sp := t.sp, p := t.p, pc := t.pc, cyc := t.cyc } ∧
  ∀ bit, bit ≠ bitI → t.p.getLsbD bit = s.p.getLsbD bit

theorem EntryFrame.trans {s t u : State} (h : EntryFrame s t) (h' : EntryFrame t u) : EntryFrame s u :=
  ⟨by rw [h'.1, h.1], fun bit hb => (h'.2 bit hb).trans (h.2 bit hb)⟩

theorem addCycles_frame (s : State) (n : Nat) : EntryFrame s (s.addCycles n) := ⟨rfl, fun _ _ => rfl⟩

theorem runPpu_frame (s : State) (draws : List RenderDraw) (n : Nat) : EntryFrame s (s.runPpu draws n) :=
  ⟨rfl, fun _ _ => rfl⟩

theorem takeInterrupt_frame (k : Pending) (s : State) : EntryFrame s (takeInterrupt k s) := by
  have hI (bit : Nat) (hb : bit ≠ bitI) : (setBit s.p bitI true).getLsbD bit = s.p.getLsbD bit := by
    rw [setBit_bits _ _ _ (by decide), if_neg hb]
  cases k
  case nmi => simp only [takeInterrupt, nmi_eq]; exact ⟨rfl, hI⟩
  case irq => simp only [takeInterrupt, irq_eq]; exact ⟨rfl, hI⟩
  case none => exact ⟨rfl, fun _ _ => rfl⟩

theorem finishClock_frame (inp : HostInput) (c : Nat) (s : State) : EntryFrame s (finishClock inp c s).1 :=
  (((addCycles_frame s _).trans (runPpu_frame _ _ _)).trans (takeInterrupt_frame _ _)).trans (runPpu_frame _ _ _)

/-! ## The invariant -/

theorem inv_iff (s : State) :
    s.Inv ↔ MemInv s ∧ s.flag bitB = false ∧ s.flag bitU = true ∧ s.refused = none :=
  ⟨fun h => ⟨⟨h.ram, h.ppu, h.index, h.chr, h.prgRam, h.prg, h.illegal⟩, h.breakClear, h.unusedSet, h.running⟩,
    fun ⟨m, b, u, r⟩ => ⟨b, u, m.ram, m.ppu, m.index, m.chr, m.prgRam, m.prg, m.illegal, r⟩⟩

theorem MemInv.takeInput {s : State} (h : MemInv s) : MemInv s.takeInput := by
  rw [takeInput_eq]
  exact ⟨h.ram, h.ppu, h.index, h.chr, h.prgRam, h.prg, h.illegal⟩

theorem MemInv.setDmaThisStep {s : State} (h : MemInv s) (b : Bool) : MemInv (s.setDmaThisStep b) :=
  ⟨h.ram, h.ppu, h.index, h.chr, h.prgRam, h.prg, h.illegal⟩

theorem MemInv.afterFetch {s : State} (h : MemInv s) (n : Nat) : MemInv (State.afterFetch n s) := by
  induction n generalizing s with
  | zero => exact h
  | succ n ih => exact ih ((h.afterRead s.pc).regs rfl)

theorem MemInv.runPpu {s : State} (h : MemInv s) (draws : List RenderDraw) (n : Nat) : MemInv (s.runPpu draws n) :=
  h.setPpu (ticks_inv draws n s.ppu h.ppu)

theorem MemInv.enterInterrupt {s : State} (h : MemInv s) (ret : Addr) (status : Byte) (vector : Addr) :
    MemInv (s.enterInterrupt ret status vector) := by
  have pushed : MemInv (((s.push16 ret).push status).setFlag bitI true) :=
    (((h.push _).push _).push status).regs rfl
  exact ((pushed.afterRead vector).afterRead (vector + 1)).regs rfl

theorem MemInv.takeInterrupt {s : State} (h : MemInv s) (k : Pending) : MemInv (takeInterrupt k s) := by
  cases k
  case nmi =>
    have hp := h.ppu
    have hq : ({ s.ppu with nmiPending := false } : Ppu).Inv :=
      ⟨hp.statusLow, hp.dotRange, hp.scanlineRange, hp.vram, hp.palette, hp.oam⟩
    exact ((h.setPpu hq).enterInterrupt _ _ _).regs rfl
  case irq => exact (h.enterInterrupt _ _ _).regs rfl
  case none => exact h

theorem MemInv.addCycles {s : State} (h : MemInv s) (n : Nat) : MemInv (s.addCycles n) := h.regs rfl

theorem MemInv.finishClock {s : State} (h : MemInv s) (inp : HostInput) (c : Nat) : MemInv (finishClock inp c s).1 :=
  (((h.addCycles _).runPpu _ _).takeInterrupt _).runPpu _ _

/-- R27: an instruction keeps B clear and U set. -/
theorem exec_keeps_breakClear_unusedSet {i : Instr} {s t : State} (h : exec i s = .next t)
    (hB : s.flag bitB = false) (hU : s.flag bitU = true) : t.flag bitB = false ∧ t.flag bitU = true := by
  obtain ⟨hkeep, hpull⟩ := instructionsLeaveOtherFlags i s t h
  by_cases hop : i.operation = .plp ∨ i.operation = .rti
  · exact hpull hop
  · obtain ⟨hplp, hrti⟩ := not_or.mp hop
    have hw : writesFlag i.operation bitB = false ∧ writesFlag i.operation bitU = false := by
      simp [writesFlag, hplp, hrti]
    exact ⟨(hkeep bitB (by decide) hw.1).trans hB, (hkeep bitU (by decide) hw.2).trans hU⟩

theorem clock_keeps_inv {inp : HostInput} {s : State} {r : State × Nat} (hs : s.Inv) (h : clock inp s = .next r) :
    r.1.Inv := by
  obtain ⟨hm, hB, hU, -⟩ := (inv_iff s).mp hs
  obtain ⟨u, hu, rfl⟩ := clock_next h
  obtain ⟨-, hue, hur⟩ := exec_next hu
  have mem : MemInv u := by
    rw [hue]
    exact ((hm.setDmaThisStep false).afterFetch _).effect _ _
  have hp := (afterFetch_frame (instrLength (s.setDmaThisStep false).fetchByte) (s.setDmaThisStep false)).p
  obtain ⟨uB, uU⟩ := exec_keeps_breakClear_unusedSet hu
    ((congrArg (·.getLsbD bitB) hp).trans hB) ((congrArg (·.getLsbD bitU) hp).trans hU)
  obtain ⟨hframe, hbits⟩ := finishClock_frame inp (u.cyc - s.cyc) u
  refine (inv_iff _).mpr ⟨mem.finishClock inp _, ?_, ?_, ?_⟩
  · exact (hbits bitB (by decide)).trans uB
  · exact (hbits bitU (by decide)).trans uU
  · rw [hframe]; exact hur

theorem takeInput_inv {s : State} (h : s.Inv) : s.takeInput.Inv := by
  obtain ⟨hm, hB, hU, hr⟩ := (inv_iff s).mp h
  refine (inv_iff _).mpr ⟨hm.takeInput, ?_⟩
  rw [takeInput_eq]
  exact ⟨hB, hU, hr⟩

/-- Settles O53: the host's inputs and the Clock step keep each part of the invariant. -/
theorem everyStepKeepsTheInvariant : Obligations.EveryStepKeepsTheInvariant := by
  intro s t hs h
  obtain ⟨frames, hc⟩ := clock_of_step h
  exact clock_keeps_inv (takeInput_inv hs) hc

/-! ## The cartridge, the parameters and the buttons -/

/-- A relation that holds across every bus read, every bus write and every change of CPU registers holds across every
instruction: an instruction is made of nothing else. -/
theorem effect_rel {R : State → State → Prop} (trans : ∀ {s t u}, R s t → R t u → R s u)
    (regs : ∀ {s t}, RegFrame s t → R s t) (read : ∀ s addr, R s (s.afterRead addr))
    (write : ∀ s addr v, R s (s.cpuWrite addr v)) (op : Operation) (o : Operand) (s : State) :
    R s (effect op o s) := by
  have refl (t : State) : R t t := regs rfl
  have push (t : State) (v : Byte) : R t (t.push v) := trans (write t _ v) (regs rfl)
  have push16 (t : State) (v : Addr) : R t (t.push16 v) := trans (push t _) (push _ _)
  have writeOperand (t : State) (ea : Option Addr) (v : Byte) : R t (t.writeOperand ea v) := by
    cases ea
    case none => exact regs rfl
    case some addr => exact write t addr v
  have resolve : R s (resolve o s).st := by
    cases o
    case indirect | indexedIndirectX | indirectIndexedY => exact trans (read s _) (read _ _)
    all_goals exact refl s
  have load : R s (loadOperand o s).st := by
    unfold loadOperand
    split
    · exact resolve
    · dsimp only
      split
      · exact trans resolve (read _ _)
      · exact resolve
  refine trans ?_ (regs (effect_busPart op o s))
  cases op
  case lda | ldx | ldy | adc | sbc | and | eor | ora | cmp | cpx | cpy | bit | lax => exact load
  case sta | stx | sty | sax => exact trans resolve (writeOperand _ _ _)
  case asl | lsr | rol | ror | inc | dec | dcp | isb | slo | rla | sre | rra => exact trans load (writeOperand _ _ _)
  case pha | php => exact push s _
  case jsr => exact trans resolve (push16 _ _)
  case brk => exact trans (push16 s _) (push _ _)
  case jmp => exact resolve
  case nop =>
    simp only [busPart, State.afterNopRead]
    split
    · split
      · split
        · exact trans resolve (read _ _)
        · exact resolve
      · exact resolve
    · exact resolve
  all_goals exact refl s

/-- What is the host's to set, and what is read-only: the header, PRG ROM, CHR ROM, PRG RAM where it is absent, the
parameters, the input queue and the buttons. -/
structure HostPartKept (s t : State) : Prop where
  header : t.cart.header = s.cart.header
  prg : t.cart.prg = s.cart.prg
  params : t.params = s.params
  inputs : t.inputs = s.inputs
  buttons : t.pad.buttons = s.pad.buttons
  chrRom : s.cart.header.chrBanks ≠ 0 → t.cart.chr = s.cart.chr
  prgRamAbsent : s.params.prgRamPresent = false → t.cart.prgRam = s.cart.prgRam

theorem HostPartKept.trans {s t u : State} (h : HostPartKept s t) (h' : HostPartKept t u) : HostPartKept s u where
  header := h'.header.trans h.header
  prg := h'.prg.trans h.prg
  params := h'.params.trans h.params
  inputs := h'.inputs.trans h.inputs
  buttons := h'.buttons.trans h.buttons
  chrRom hb := (h'.chrRom (by rw [h.header]; exact hb)).trans (h.chrRom hb)
  prgRamAbsent ha := (h'.prgRamAbsent (by rw [h.params]; exact ha)).trans (h.prgRamAbsent ha)

/-- An update of anything else keeps the host's part. -/
theorem HostPartKept.of_eq {s t : State} (hcart : t.cart = s.cart) (hparams : t.params = s.params)
    (hinputs : t.inputs = s.inputs) (hbuttons : t.pad.buttons = s.pad.buttons) : HostPartKept s t where
  header := by rw [hcart]
  prg := by rw [hcart]
  params := hparams
  inputs := hinputs
  buttons := hbuttons
  chrRom _ := by rw [hcart]
  prgRamAbsent _ := by rw [hcart]

theorem HostPartKept.refl (s : State) : HostPartKept s s := .of_eq rfl rfl rfl rfl

theorem RegFrame.hostPartKept {s t : State} (h : RegFrame s t) : HostPartKept s t := by
  rw [RegFrame] at h
  rw [h]
  exact .of_eq rfl rfl rfl rfl

theorem ReadFrame.hostPartKept {s t : State} (h : ReadFrame s t) : HostPartKept s t :=
  .of_eq h.cart h.params h.inputs h.pad_buttons

theorem EntryFrame.hostPartKept {s t : State} (h : EntryFrame s t) : HostPartKept s t := by
  rw [h.1]
  exact .of_eq rfl rfl rfl rfl

theorem setDmaThisStep_hostPartKept (s : State) (b : Bool) : HostPartKept s (s.setDmaThisStep b) :=
  .of_eq rfl rfl rfl rfl

/-- R87: a PPU write reaches CHR only where it is RAM. -/
theorem ppuWrite_hostPartKept (s : State) (a : VAddr) (v : Byte) : HostPartKept s (s.ppuWrite a v) := by
  unfold State.ppuWrite
  split
  case h_1 =>
    split
    case isTrue hram => exact ⟨rfl, rfl, rfl, rfl, rfl, fun hrom => absurd hram hrom, fun _ => rfl⟩
    case isFalse => exact .of_eq rfl rfl rfl rfl
  all_goals exact .of_eq rfl rfl rfl rfl

theorem ppuRegWrite_hostPartKept (s : State) (r : Nat) (v : Byte) : HostPartKept s (s.ppuRegWrite r v) := by
  unfold State.ppuRegWrite
  split
  case h_7 => exact (ppuWrite_hostPartKept s _ v).trans (.of_eq rfl rfl rfl rfl)
  all_goals exact .of_eq rfl rfl rfl rfl

theorem oamDma_hostPartKept (s : State) (page : Byte) : HostPartKept s (s.oamDma page) := by
  have copies (n : Nat) : HostPartKept s (s.dmaCopies (joinBytes page 0x00) n) := by
    induction n with
    | zero => exact .refl s
    | succ n ih => exact (ih.trans (afterRead_frame _ _).hostPartKept).trans (.of_eq rfl rfl rfl rfl)
  exact (copies 256).trans (setDmaThisStep_hostPartKept _ true)

/-- R60, R69: a bus write reaches PRG RAM only where it is present, and PRG ROM never (R72). -/
theorem cpuWrite_hostPartKept (s : State) (addr : Addr) (v : Byte) : HostPartKept s (s.cpuWrite addr v) := by
  unfold State.cpuWrite
  split
  case h_2 r _ => exact ppuRegWrite_hostPartKept s r v
  case h_3 => exact oamDma_hostPartKept s v
  case h_5 i ht =>
    have hpresent : s.params.prgRamPresent = true := by
      by_contra ha
      simp only [State.busTarget, Bool.eq_false_iff.mpr ha, Bool.false_eq_true, if_false] at ht
      split_ifs at ht
    exact ⟨rfl, rfl, rfl, rfl, rfl, fun _ => rfl, fun ha => by simp [hpresent] at ha⟩
  all_goals exact .of_eq rfl rfl rfl rfl

theorem effect_hostPartKept (op : Operation) (o : Operand) (s : State) : HostPartKept s (effect op o s) :=
  effect_rel (R := HostPartKept) HostPartKept.trans RegFrame.hostPartKept
    (fun t a => (afterRead_frame t a).hostPartKept) cpuWrite_hostPartKept op o s

theorem afterFetch_hostPartKept (n : Nat) (s : State) : HostPartKept s (State.afterFetch n s) :=
  (afterFetch_frame n s).hostPartKept.trans (.of_eq rfl rfl rfl rfl)

theorem clock_hostPartKept {inp : HostInput} {s : State} {r : State × Nat} (h : clock inp s = .next r) :
    HostPartKept s r.1 := by
  obtain ⟨u, hu, rfl⟩ := clock_next h
  have executed : HostPartKept s u := by
    rw [(exec_next hu).2.1]
    exact ((setDmaThisStep_hostPartKept s false).trans (afterFetch_hostPartKept _ _)).trans (effect_hostPartKept _ _ _)
  exact executed.trans (finishClock_frame inp _ u).hostPartKept

/-- R362: the buttons a step begins with are those the head of the queue names, else those held. -/
theorem nextInput_buttons (s : State) : s.nextInput.buttons.getD s.pad.buttons =
    (match s.inputs with
      | [] => s.pad.buttons
      | inp :: _ => inp.buttons.getD s.pad.buttons) := by
  unfold State.nextInput
  cases s.inputs <;> rfl

/-- Settles O54: the Clock step keeps the host's part of the state that taking the inputs leaves. -/
theorem stepsKeepCartridgeRomAndParameters : Obligations.StepsKeepCartridgeRomAndParameters := by
  refine ⟨fun s t h => ?_, fun inp s r h => (clock_hostPartKept h).buttons⟩
  obtain ⟨frames, hc⟩ := clock_of_step h
  have kept := clock_hostPartKept hc
  rw [takeInput_eq] at kept
  exact ⟨kept.header, kept.prg, kept.params, kept.inputs, kept.chrRom, kept.prgRamAbsent,
    kept.buttons.trans (nextInput_buttons s)⟩

end Sys2Proof.Machine
end

section
/-!
PROOF. Nothing reads mask, scroll_x, scroll_y or the illegal-write record (spec/10_state.md R31, R34, R37): every
operation of the model, started in the state with these erased (`withoutUnread`), has the same value and leaves the same
state but for these. Where an operation writes none of them the two commute; a bus write may write them, and then they
are erased on both sides.
-/

open Sys2Proof.Rules

namespace Sys2Proof.Machine

@[simp] theorem withoutUnread_withoutUnread (s : State) : withoutUnread (withoutUnread s) = withoutUnread s := rfl

/-! ## Bus reads and the fetch -/

theorem cpuRead_withoutUnread (s : State) (addr : Addr) : (withoutUnread s).cpuRead addr = s.cpuRead addr := rfl

theorem afterPpuRead_withoutUnread (s : State) (a : VAddr) :
    (withoutUnread s).afterPpuRead a = withoutUnread (s.afterPpuRead a) := by
  unfold State.afterPpuRead
  rw [show (withoutUnread s).mirroring = s.mirroring from rfl]
  cases ppuTarget s.mirroring a <;> rfl

theorem afterPpuRegRead_withoutUnread (s : State) (r : Nat) :
    (withoutUnread s).afterPpuRegRead r = withoutUnread (s.afterPpuRegRead r) := by
  unfold State.afterPpuRegRead
  split
  case h_1 => rfl
  case h_2 =>
    unfold State.afterDataRead
    dsimp only
    rw [show (withoutUnread s).ppu.vramAddr = s.ppu.vramAddr from rfl, afterPpuRead_withoutUnread]
    rfl
  case h_3 => rfl

theorem afterRead_withoutUnread (s : State) (addr : Addr) :
    (withoutUnread s).afterRead addr = withoutUnread (s.afterRead addr) := by
  unfold State.afterRead
  rw [show (withoutUnread s).busTarget addr = s.busTarget addr from rfl]
  cases s.busTarget addr
  case ppuReg r => exact afterPpuRegRead_withoutUnread s r
  all_goals rfl

theorem read16_withoutUnread (s : State) (addr : Addr) : (withoutUnread s).read16 addr = s.read16 addr := by
  simp only [State.read16, afterRead_withoutUnread, cpuRead_withoutUnread]

theorem afterFetchByte_withoutUnread (s : State) :
    (withoutUnread s).afterFetchByte = withoutUnread s.afterFetchByte := by
  unfold State.afterFetchByte
  rw [show (withoutUnread s).pc = s.pc from rfl, afterRead_withoutUnread]
  rfl

theorem afterFetch_withoutUnread (n : Nat) (s : State) :
    State.afterFetch n (withoutUnread s) = withoutUnread (State.afterFetch n s) := by
  induction n generalizing s with
  | zero => rfl
  | succ n ih => rw [State.afterFetch, afterFetchByte_withoutUnread, ih, State.afterFetch]

theorem fetchInstr_withoutUnread (s : State) : (withoutUnread s).fetchInstr = s.fetchInstr := by
  simp only [State.fetchInstr, afterFetch_withoutUnread]
  rfl

/-! ## Bus writes -/

theorem ppuWrite_withoutUnread (s : State) (a : VAddr) (v : Byte) :
    withoutUnread ((withoutUnread s).ppuWrite a v) = withoutUnread (s.ppuWrite a v) := by
  unfold State.ppuWrite
  rw [show (withoutUnread s).mirroring = s.mirroring from rfl]
  cases ppuTarget s.mirroring a
  case chr i =>
    dsimp only
    rw [show (withoutUnread s).cart = s.cart from rfl]
    split <;> rfl
  all_goals rfl

theorem ppuRegWrite_withoutUnread (s : State) (r : Nat) (v : Byte) :
    withoutUnread ((withoutUnread s).ppuRegWrite r v) = withoutUnread (s.ppuRegWrite r v) := by
  unfold State.ppuRegWrite
  split
  case h_5 =>
    unfold Ppu.writeScroll
    rw [show (withoutUnread s).ppu.scrollW = s.ppu.scrollW from rfl]
    split <;> rfl
  case h_6 =>
    unfold Ppu.writeAddr
    rw [show (withoutUnread s).ppu.addrW = s.ppu.addrW from rfl]
    split <;> rfl
  case h_7 =>
    exact congrArg (fun t : State => t.setPpu { t.ppu with vramAddr := s.ppu.vramAddr + s.ppu.increment })
      (ppuWrite_withoutUnread s s.ppu.vramAddr v)
  all_goals rfl

theorem dmaCopy_withoutUnread (s : State) (base : Addr) (i : Nat) :
    (withoutUnread s).dmaCopy base i = withoutUnread (s.dmaCopy base i) := by
  unfold State.dmaCopy
  dsimp only
  rw [cpuRead_withoutUnread, afterRead_withoutUnread]
  rfl

theorem dmaCopies_withoutUnread (s : State) (base : Addr) (n : Nat) :
    (withoutUnread s).dmaCopies base n = withoutUnread (s.dmaCopies base n) := by
  induction n with
  | zero => rfl
  | succ n ih => rw [State.dmaCopies, ih, dmaCopy_withoutUnread, State.dmaCopies]

theorem oamDma_withoutUnread (s : State) (page : Byte) :
    (withoutUnread s).oamDma page = withoutUnread (s.oamDma page) := by
  unfold State.oamDma
  rw [dmaCopies_withoutUnread]
  generalize s.dmaCopies (joinBytes page 0x00) 256 = t
  rfl

theorem cpuWrite_withoutUnread (s : State) (addr : Addr) (v : Byte) :
    withoutUnread ((withoutUnread s).cpuWrite addr v) = withoutUnread (s.cpuWrite addr v) := by
  unfold State.cpuWrite
  rw [show (withoutUnread s).busTarget addr = s.busTarget addr from rfl]
  cases s.busTarget addr
  case ppuReg r => exact ppuRegWrite_withoutUnread s r v
  case oamDma =>
    dsimp only
    rw [oamDma_withoutUnread, withoutUnread_withoutUnread]
  all_goals rfl

theorem writeOperand_withoutUnread (s : State) (ea : Option Addr) (v : Byte) :
    withoutUnread ((withoutUnread s).writeOperand ea v) = withoutUnread (s.writeOperand ea v) := by
  cases ea with
  | none => rfl
  | some addr => exact cpuWrite_withoutUnread s addr v

/-! ## The effect of an instruction -/

theorem resolve_withoutUnread (o : Operand) (s : State) :
    resolve o (withoutUnread s) = { resolve o s with st := withoutUnread (resolve o s).st } := by
  cases o
  case indirect =>
    simp only [resolve, State.readPair, State.afterReadPair, afterRead_withoutUnread, cpuRead_withoutUnread]
  case indexedIndirectX | indirectIndexedY =>
    simp only [resolve, State.readPair, State.afterReadPair, afterRead_withoutUnread, cpuRead_withoutUnread]
    rfl
  all_goals rfl

theorem loadOperand_withoutUnread (o : Operand) (s : State) :
    loadOperand o (withoutUnread s) = { loadOperand o s with st := withoutUnread (loadOperand o s).st } := by
  unfold loadOperand
  rw [resolve_withoutUnread]
  split
  · rfl
  · dsimp only
    split
    · rw [cpuRead_withoutUnread, afterRead_withoutUnread]
    · rfl

theorem readEffect_withoutUnread (o : Operand) (base : Nat) (cares : Bool) {f : State → Byte → State}
    (hf : ∀ t m, f (withoutUnread t) m = withoutUnread (f t m)) (s : State) :
    withoutUnread (readEffect o base cares f (withoutUnread s)) = withoutUnread (readEffect o base cares f s) := by
  simp only [readEffect, loadOperand_withoutUnread, hf]
  rfl

theorem storeEffect_withoutUnread (o : Operand) (base : Nat) {v : State → Byte}
    (hv : ∀ t, v (withoutUnread t) = v t) (s : State) :
    withoutUnread (storeEffect o base v (withoutUnread s)) = withoutUnread (storeEffect o base v s) := by
  simp only [storeEffect, resolve_withoutUnread, hv]
  exact congrArg (State.addCycles · base) (writeOperand_withoutUnread _ _ _)

theorem modifyEffect_withoutUnread (o : Operand) (base : Nat) {g : State → Byte → Byte}
    {f : State → Byte → Byte → State} (hg : ∀ t v, g (withoutUnread t) v = g t v)
    (hf : ∀ t v r, f (withoutUnread t) v r = withoutUnread (f t v r)) (s : State) :
    withoutUnread (modifyEffect o base g f (withoutUnread s)) = withoutUnread (modifyEffect o base g f s) := by
  simp only [modifyEffect, loadOperand_withoutUnread, hg]
  show (withoutUnread (f _ _ _)).addCycles base = (withoutUnread (f _ _ _)).addCycles base
  rw [← hf, writeOperand_withoutUnread, hf]

theorem branchEffect_withoutUnread (off : Int) (taken : Bool) (s : State) :
    withoutUnread (branchEffect off taken (withoutUnread s)) = withoutUnread (branchEffect off taken s) := by
  cases taken <;> rfl

theorem effect_withoutUnread (op : Operation) (o : Operand) (s : State) :
    withoutUnread (effect op o (withoutUnread s)) = withoutUnread (effect op o s) := by
  cases op
  case lda | ldx | ldy | adc | sbc | and | eor | ora | cmp | cpx | cpy | bit | lax =>
    exact readEffect_withoutUnread _ _ _ (fun _ _ => rfl) s
  case sta | stx | sty | sax => exact storeEffect_withoutUnread _ _ (fun _ => rfl) s
  case asl | lsr | rol | ror | inc | dec | dcp | isb | slo | rla | sre | rra =>
    exact modifyEffect_withoutUnread _ _ (fun _ _ => rfl) (fun _ _ _ => rfl) s
  case bcc | bcs | beq | bmi | bne | bpl | bvc | bvs =>
    exact branchEffect_withoutUnread _ _ s
  case jmp | jsr =>
    simp only [effect, resolve_withoutUnread, push16_eq]
    cases (resolve o s).ea <;> rfl
  case nop =>
    simp only [effect, resolve_withoutUnread]
    generalize (resolve o s).st = t
    split
    · cases (resolve o s).ea with
      | none => rfl
      | some addr =>
        simp only [State.afterNopRead, afterRead_withoutUnread]
        rw [show (withoutUnread t).params = t.params from rfl]
        split <;> rfl
    · rfl
  case pha => simp only [effect, pha_eq]; rfl
  case php => simp only [effect, php_eq]; rfl
  case pla => simp only [effect, pla_eq, pull_eq]; rfl
  case plp => simp only [effect, plp_eq, pull_eq]; rfl
  case rts => simp only [effect, rts_eq, pull16_eq]; rfl
  case rti => simp only [effect, rti_eq]; rfl
  case brk => simp only [effect, brk_eq, read16_withoutUnread]; rfl
  all_goals rfl

/-! ## The instruction and the Clock step -/

/-- An outcome with what nothing reads erased from its next state. -/
def resultWithoutUnread : Result → Result
  | .next t => .next (withoutUnread t)
  | .fault f => .fault f
  | .refused r => .refused r

/-- Two outcomes equal but for what nothing reads are both next states or the same refusal. -/
theorem resultWithoutUnread_eq_cases {r r' : Result} (h : resultWithoutUnread r = resultWithoutUnread r') :
    (∃ t t', r = .next t ∧ r' = .next t' ∧ withoutUnread t = withoutUnread t') ∨
      ∃ q, r = .refused q ∧ r' = .refused q := by
  cases r with
  | fault f => cases f
  | next t =>
    cases r' with
    | next t' => exact .inl ⟨t, t', rfl, rfl, by injection h⟩
    | fault f => cases f
    | refused q => cases h
  | refused q =>
    cases r' with
    | next t' => cases h
    | fault f => cases f
    | refused q' => exact .inr ⟨q, rfl, by rw [← Host.Outcome.refused.inj h]⟩

theorem resultWithoutUnread_finish (s : State) : resultWithoutUnread (finish s) = finish (withoutUnread s) := by
  unfold finish
  rw [show (withoutUnread s).refused = s.refused from rfl]
  cases s.refused <;> rfl

theorem exec_withoutUnread (i : Instr) (s : State) :
    resultWithoutUnread (exec i (withoutUnread s)) = resultWithoutUnread (exec i s) := by
  by_cases hu : i.operation = .unsupported
  · rw [exec_eq, exec_eq, hu]
    rfl
  · rw [exec_of_effect i _ hu, exec_of_effect i _ hu, resultWithoutUnread_finish, resultWithoutUnread_finish,
      effect_withoutUnread]

theorem executeSingle_withoutUnread (s : State) :
    resultWithoutUnread (executeSingle (withoutUnread s)) = resultWithoutUnread (executeSingle s) := by
  unfold executeSingle
  rw [show (withoutUnread s).fetchByte = s.fetchByte from rfl, fetchInstr_withoutUnread,
    afterFetch_withoutUnread]
  dsimp only
  generalize State.afterFetch (instrLength s.fetchByte) s = t
  rw [show (withoutUnread t).refused = t.refused from rfl]
  cases t.refused with
  | none => exact exec_withoutUnread _ t
  | some r => rfl

/-- The PPU with the registers no rule reads erased (R34, R37). -/
def ppuWithoutUnread (p : Ppu) : Ppu := { p with mask := 0, scrollX := 0, scrollY := 0 }

theorem tick_ppuWithoutUnread (draws : List RenderDraw) (p : Ppu) :
    (ppuWithoutUnread p).tick draws = ppuWithoutUnread (p.tick draws) := by
  have advance : (ppuWithoutUnread p).advance = ppuWithoutUnread p.advance := by
    unfold Ppu.advance
    rw [show (ppuWithoutUnread p).dot = p.dot from rfl, show (ppuWithoutUnread p).scanline = p.scanline from rfl]
    split
    · split <;> rfl
    · rfl
  have vblankStart (q : Ppu) : (ppuWithoutUnread q).vblankStart = ppuWithoutUnread q.vblankStart := by
    unfold Ppu.vblankStart
    rw [show (ppuWithoutUnread q).dot = q.dot from rfl, show (ppuWithoutUnread q).scanline = q.scanline from rfl]
    split <;> rfl
  have renderDraw (q : Ppu) : (ppuWithoutUnread q).renderDraw draws = ppuWithoutUnread (q.renderDraw draws) := by
    unfold Ppu.renderDraw
    rw [show (ppuWithoutUnread q).scanline = q.scanline from rfl]
    split <;> rfl
  rw [Ppu.tick, advance, vblankStart, renderDraw, Ppu.tick]

theorem ticks_ppuWithoutUnread (draws : List RenderDraw) (n : Nat) (p : Ppu) :
    (ppuWithoutUnread p).ticks draws n = ppuWithoutUnread (p.ticks draws n) := by
  induction n generalizing p with
  | zero => rfl
  | succ n ih => rw [Ppu.ticks, tick_ppuWithoutUnread, ih, Ppu.ticks]

theorem runPpu_withoutUnread (s : State) (draws : List RenderDraw) (n : Nat) :
    (withoutUnread s).runPpu draws n = withoutUnread (s.runPpu draws n) := by
  unfold State.runPpu
  rw [show (withoutUnread s).ppu = ppuWithoutUnread s.ppu from rfl, ticks_ppuWithoutUnread]
  rfl

theorem takeInterrupt_withoutUnread (k : Pending) (s : State) :
    takeInterrupt k (withoutUnread s) = withoutUnread (takeInterrupt k s) := by
  cases k
  case nmi =>
    have cleared : (withoutUnread s).setPpu { (withoutUnread s).ppu with nmiPending := false } =
      withoutUnread (s.setPpu { s.ppu with nmiPending := false }) := rfl
    simp only [takeInterrupt, cleared, nmi_eq, read16_withoutUnread]
    rfl
  case irq =>
    simp only [takeInterrupt, irq_eq, read16_withoutUnread]
    rfl
  case none => rfl

theorem finishClock_withoutUnread (inp : HostInput) (c : Nat) (s : State) :
    (finishClock inp c (withoutUnread s)).1 = withoutUnread (finishClock inp c s).1 := by
  have stalled (n : Nat) : (withoutUnread s).addCycles n = withoutUnread (s.addCycles n) := rfl
  have pending (t : State) : pendingInterrupt inp.irqLine (withoutUnread t) = pendingInterrupt inp.irqLine t := rfl
  simp only [finishClock, stalled, runPpu_withoutUnread, pending, takeInterrupt_withoutUnread]
  rfl

/-- One step, with what nothing reads erased before it or not. -/
theorem step_withoutUnread (s : State) :
    resultWithoutUnread (step (withoutUnread s)) = resultWithoutUnread (step s) := by
  have taken : (withoutUnread s).takeInput = withoutUnread s.takeInput := by
    rw [takeInput_eq, takeInput_eq]
    rfl
  unfold step clockNext clock
  rw [show (withoutUnread s).nextInput = s.nextInput from rfl, taken]
  generalize s.takeInput = t
  have executed := executeSingle_withoutUnread (t.setDmaThisStep false)
  rw [show (withoutUnread t).refused = t.refused from rfl,
    show (withoutUnread t).setDmaThisStep false = withoutUnread (t.setDmaThisStep false) from rfl,
    show (withoutUnread t).cyc = t.cyc from rfl]
  cases t.refused with
  | some r => rfl
  | none =>
    rcases resultWithoutUnread_eq_cases executed with ⟨u', u, hu', hu, same⟩ | ⟨q, hq', hq⟩
    · have hcyc : u'.cyc = u.cyc := (congrArg State.cyc same :)
      simp only [hu', hu, resultWithoutUnread]
      rw [← finishClock_withoutUnread, ← finishClock_withoutUnread, same, hcyc]
    · simp only [hq', hq]

/-- Settles O60: two states equal but for what nothing reads step as the one state with it erased. -/
theorem noStepReadsMaskScrollOrDiagnostics : Obligations.NoStepReadsMaskScrollOrDiagnostics := by
  intro s s' h
  have same : resultWithoutUnread (step s) = resultWithoutUnread (step s') := by
    rw [← step_withoutUnread s, h, step_withoutUnread s']
  rcases resultWithoutUnread_eq_cases same with ⟨t, t', ht, ht', h⟩ | ⟨r, hr, hr'⟩
  · simp only [ht, ht']
    exact h
  · simp only [hr, hr']

end Sys2Proof.Machine
end

section
/-!
PROOF. The raster (spec/10_state.md R41, R42, spec/60_exceptions.md R340 to R342): a tick moves the raster position one
on, and back by a frame of 89342 when it completes one. The position after n ticks and the frames completed follow by
induction; where VBlank and the NMI latch stand is read off the position.
-/

open Sys2Proof.Rules

namespace Sys2Proof.Machine

/-! ## The raster position -/

theorem rasterPosition_bounds {p : Ppu} (h : RasterInRange p) : 0 ≤ rasterPosition p ∧ rasterPosition p < 89342 := by
  obtain ⟨hd, hlo, hhi⟩ := h
  unfold rasterPosition
  omega

/-- Within their ranges the position fixes both counters. -/
theorem counters_eq_of_rasterPosition_eq {p q : Ppu} (hp : RasterInRange p) (hq : RasterInRange q)
    (h : rasterPosition p = rasterPosition q) : p.dot = q.dot ∧ p.scanline = q.scanline := by
  obtain ⟨hpd, -, -⟩ := hp
  obtain ⟨hqd, -, -⟩ := hq
  unfold rasterPosition at h
  omega

theorem tickCompletesFrame_iff (p : Ppu) : p.tickCompletesFrame = true ↔ p.dot + 1 = 341 ∧ p.scanline + 1 = 261 := by
  simp [Ppu.tickCompletesFrame, dotsPerLine]

theorem advance_rasterPosition {p : Ppu} (h : RasterInRange p) : RasterInRange p.advance ∧
    rasterPosition p.advance + 89342 * p.tickCompletesFrame.toNat = rasterPosition p + 1 := by
  obtain ⟨hd, hlo, hhi⟩ := h
  have hline : dotsPerLine = 341 := rfl
  unfold Ppu.advance Ppu.tickCompletesFrame RasterInRange rasterPosition
  split
  case isTrue hdot =>
    split
    case isTrue hlast => simp [hdot, hlast]; omega
    case isFalse hlast => simp [hlast]; omega
  case isFalse hdot => simp [hdot]; omega

theorem tick_rasterPosition (draws : List RenderDraw) {p : Ppu} (h : RasterInRange p) :
    RasterInRange (p.tick draws) ∧
      rasterPosition (p.tick draws) + 89342 * p.tickCompletesFrame.toNat = rasterPosition p + 1 := by
  obtain ⟨hd, hs, -⟩ := tick_raster draws p
  unfold RasterInRange rasterPosition
  rw [hd, hs]
  exact advance_rasterPosition h

/-- R42: n ticks move the position n on, less the frames they complete. -/
theorem ticks_rasterPosition (draws : List RenderDraw) {p : Ppu} (h : RasterInRange p) (n : Nat) :
    RasterInRange (p.ticks draws n) ∧
      rasterPosition (p.ticks draws n) + 89342 * (p.frames draws n : Nat) = rasterPosition p + n := by
  induction n with
  | zero => exact ⟨h, by simp [Ppu.ticks, Ppu.frames]⟩
  | succ n ih =>
    obtain ⟨hr, hpos⟩ := ih
    obtain ⟨hr', hpos'⟩ := tick_rasterPosition draws hr
    rw [ticks_succ, frames_succ]
    refine ⟨hr', ?_⟩
    push_cast
    omega

/-- A frame's worth of ticks completes one frame and returns to the position. -/
theorem ticks_frame (draws : List RenderDraw) {p : Ppu} (h : RasterInRange p) :
    p.frames draws 89342 = 1 ∧ (p.ticks draws 89342).dot = p.dot ∧ (p.ticks draws 89342).scanline = p.scanline := by
  obtain ⟨hr, hpos⟩ := ticks_rasterPosition draws h 89342
  have hb := rasterPosition_bounds h
  have hb' := rasterPosition_bounds hr
  have hframes : p.frames draws 89342 = 1 := by omega
  exact ⟨hframes, counters_eq_of_rasterPosition_eq hr h (by rw [hframes] at hpos; omega)⟩

/-! ## VBlank and the NMI latch -/

/-- Whether a tick that arrives here starts VBlank (R341). -/
def Ppu.startsVBlank (p : Ppu) : Prop := p.scanline = 241 ∧ p.dot = 1

theorem startsVBlank_iff {p : Ppu} (h : RasterInRange p) : p.startsVBlank ↔ rasterPosition p = 82523 := by
  obtain ⟨hd, -, -⟩ := h
  unfold Ppu.startsVBlank rasterPosition
  omega

theorem advance_status (p : Ppu) : p.advance.status =
    if p.tickCompletesFrame = true then setBit (setBit p.status bitVBlank false) bitSpriteZeroHit false
    else p.status := by
  unfold Ppu.advance Ppu.tickCompletesFrame
  split
  case isTrue hdot => split <;> simp [*]
  case isFalse hdot => simp [hdot]

theorem advance_nmiPending (p : Ppu) : p.advance.nmiPending = p.nmiPending := by
  unfold Ppu.advance
  split
  · split <;> rfl
  · rfl

/-- VBlank and the NMI latch after a tick that completes no frame (R341). -/
theorem tick_vblank (draws : List RenderDraw) {p : Ppu} (h : p.tickCompletesFrame = false) :
    ((p.tick draws).startsVBlank → (p.tick draws).status.getLsbD 7 = true ∧
      (p.tick draws).nmiPending = (p.nmiPending || p.enableNmi)) ∧
    (¬(p.tick draws).startsVBlank → (p.tick draws).status.getLsbD 7 = p.status.getLsbD 7 ∧
      (p.tick draws).nmiPending = p.nmiPending) := by
  obtain ⟨-, -, -, hnmi, hbit, -⟩ := renderDraw_raster draws p.advance.vblankStart
  obtain ⟨hd, hs, -⟩ := tick_raster draws p
  have hst : p.advance.status = p.status := by rw [advance_status, h]; rfl
  unfold Ppu.startsVBlank
  rw [hd, hs, Ppu.tick, hnmi, hbit]
  refine ⟨fun hv => ?_, fun hv => ?_⟩
  · rw [Ppu.vblankStart, if_pos hv]
    refine ⟨?_, by simp only [Ppu.enableNmi, advance_nmiPending, advance_ctrl]⟩
    rw [setBit_bits _ _ _ (by decide), if_pos rfl]
  · rw [Ppu.vblankStart, if_neg hv, hst, advance_nmiPending]
    exact ⟨rfl, rfl⟩

/-- R342: the tick that completes a frame clears VBlank and SpriteZeroHit, and draws nothing. -/
theorem tick_status_of_completes (draws : List RenderDraw) {p : Ppu} (h : p.tickCompletesFrame = true) :
    (p.tick draws).status = setBit (setBit p.status bitVBlank false) bitSpriteZeroHit false := by
  obtain ⟨hdot, hlast⟩ := (tickCompletesFrame_iff p).mp h
  have hs : p.advance.scanline = -1 := by
    unfold Ppu.advance
    rw [if_pos (show p.dot + 1 = dotsPerLine from hdot), if_pos hlast]
  have hv : p.advance.vblankStart = p.advance := by
    unfold Ppu.vblankStart
    rw [if_neg (by omega)]
  rw [Ppu.tick, hv, Ppu.renderDraw, if_neg (by omega), advance_status, if_pos h]

theorem ticks_ctrl (draws : List RenderDraw) (n : Nat) (p : Ppu) : (p.ticks draws n).ctrl = p.ctrl := by
  induction n with
  | zero => rfl
  | succ n ih =>
    obtain ⟨-, -, hc⟩ := tick_raster draws (p.ticks draws n)
    rw [ticks_succ, hc, ih]

section
variable (draws : List RenderDraw) {p : Ppu} (hdot : p.dot = 0) (hline : p.scanline = -1)
include hdot hline

theorem rasterInRange_frame_start : RasterInRange p := by
  unfold RasterInRange
  omega

/-- From the first position of a frame, fewer ticks than a frame has reach their own number and complete none. -/
theorem ticks_from_frame_start {n : Nat} (hn : n < 89342) :
    RasterInRange (p.ticks draws n) ∧ rasterPosition (p.ticks draws n) = n ∧ p.frames draws n = 0 := by
  obtain ⟨hr, hpos⟩ := ticks_rasterPosition draws (rasterInRange_frame_start hdot hline) n
  have hb := rasterPosition_bounds hr
  have h0 : rasterPosition p = 0 := by simp [rasterPosition, hdot, hline]
  exact ⟨hr, by omega, by omega⟩

/-- VBlank through the first frame: clear before tick 82523, set from it on, and the latch with it when EnableNmi
is set. -/
theorem ticks_vblank (hstatus : p.status.getLsbD 7 = false) (hnmi : p.nmiPending = false) {n : Nat} (hn : n < 89342) :
    (p.ticks draws n).status.getLsbD 7 = decide (82523 ≤ n) ∧
      (p.ticks draws n).nmiPending = (decide (82523 ≤ n) && p.ctrl.getLsbD 7) := by
  induction n with
  | zero => exact ⟨hstatus, hnmi⟩
  | succ n ih =>
    obtain ⟨ihs, ihn⟩ := ih (by omega)
    obtain ⟨hr, hpos, hframes⟩ := ticks_from_frame_start draws hdot hline hn
    obtain ⟨-, -, hframes'⟩ := ticks_from_frame_start draws hdot hline (show n < 89342 by omega)
    rw [frames_succ, hframes', Nat.zero_add, Bool.toNat_eq_zero] at hframes
    obtain ⟨hstart, hother⟩ := tick_vblank draws hframes
    rw [ticks_succ] at hr hpos ⊢
    rw [startsVBlank_iff hr, hpos] at hstart hother
    by_cases h : n + 1 = 82523
    · obtain ⟨hs, hp⟩ := hstart (by omega)
      rw [hs, hp, ihn, Ppu.enableNmi, ticks_ctrl]
      simp [show 82523 ≤ n + 1 by omega, show ¬82523 ≤ n by omega]
    · obtain ⟨hs, hp⟩ := hother (by omega)
      rw [hs, hp, ihs, ihn]
      have same : 82523 ≤ n ↔ 82523 ≤ n + 1 := by omega
      simp only [same, and_self]

/-- The first frame's last tick clears VBlank and SpriteZeroHit. -/
theorem ticks_frame_end_status :
    (p.ticks draws 89342).status.getLsbD 7 = false ∧ (p.ticks draws 89342).status.getLsbD 6 = false := by
  have hone : p.frames draws (89341 + 1) = 1 := (ticks_frame draws (rasterInRange_frame_start hdot hline)).1
  obtain ⟨-, -, hnone⟩ := ticks_from_frame_start draws hdot hline (show 89341 < 89342 by omega)
  rw [frames_succ, hnone, Nat.zero_add, Bool.toNat_eq_one] at hone
  rw [ticks_succ, tick_status_of_completes draws hone]
  constructor
  · rw [setBit_bits _ _ _ (by decide), if_neg (by decide), setBit_bits _ _ _ (by decide), if_pos rfl]
  · rw [setBit_bits _ _ _ (by decide), if_pos rfl]

end

/-- Settles O48: both parts are read off the raster position after n ticks. -/
theorem frameAndVblankComeAtTheirTicks : Obligations.FrameAndVblankComeAtTheirTicks := by
  refine ⟨fun draws p h => ?_, fun draws vram palette oam ctrl => ?_⟩
  · obtain ⟨hf, hd, hs⟩ := ticks_frame draws h
    exact ⟨hf, hd, hs, fun n => (ticks_rasterPosition draws h n).1⟩
  · intro p
    have hstatus : p.status.getLsbD 7 = false := by simp [p, Ppu.afterReset]
    have vblank {n : Nat} (hn : n < 89342) := ticks_vblank draws (p := p) rfl rfl hstatus rfl hn
    obtain ⟨hr, hpos, -⟩ := ticks_from_frame_start draws (p := p) rfl rfl (show 82523 < 89342 by omega)
    obtain ⟨hs, hd⟩ := (startsVBlank_iff hr).mpr hpos
    refine ⟨fun n hn => ?_, fun n hlo hhi => ?_, hs, hd, fun n hn => ?_, ?_, ticks_frame_end_status draws rfl rfl⟩
    · simpa [show ¬82523 ≤ n by omega] using vblank (show n < 89342 by omega)
    · simpa [hlo] using vblank hhi
    · obtain ⟨-, -, hnone⟩ := ticks_from_frame_start draws (p := p) rfl rfl hn
      exact hnone
    · exact (ticks_frame draws (p := p) (rasterInRange_frame_start rfl rfl)).1

end Sys2Proof.Machine
end

section
/-!
PROOF. The memories (spec/10_state.md R30, R43 to R45, R48, spec/20_memory.md R82) and the cartridge that Create builds
from an image (R100 to R103): the image's regions are slices of it, and a memory made of a slice reads as the image.
-/

namespace Sys2Proof.Machine

/-- Settles O39: the laws of a write, and the extensionality of the canonical form. -/
theorem memoryReadsWhatWasWritten : Obligations.MemoryReadsWhatWasWritten :=
  ⟨fun m i j v => read_write m i v j, fun _ _ _ v hi h => canon_write v hi h, fun m m' => wf_ext m m' 0⟩

/-- A memory made of the `len` bytes of an image from `off` on reads as the image does there. -/
theorem read_ofBytes_slice (bytes : List Byte) (off : Nat) {len k : Nat} (hk : k < len) :
    (Memory.ofBytes ((bytes.drop off).take len)).read k = bytes.getD (off + k) 0 := by
  rw [read_ofBytes, List.getD_eq_getElem?_getD, List.getD_eq_getElem?_getD, List.getElem?_take_of_lt hk,
    List.getElem?_drop]
  rfl

section
variable {bytes : List Byte} {chrRam prgRam : Memory}

/-! ## The checks of Create, in R100's order -/

theorem create_of_short (h : bytes.length < 16) : create bytes chrRam prgRam = .error .truncated := if_pos h

section
variable (hlen : 16 ≤ bytes.length)
include hlen

theorem create_of_magic_ne (h : bytes.take 4 ≠ inesMagic) : create bytes chrRam prgRam = .error .badMagic := by
  unfold create
  rw [if_neg (Nat.not_lt.mpr hlen), if_pos h]

variable (hmagic : bytes.take 4 = inesMagic)
include hmagic

theorem create_of_mapperId_ne_zero (h : (headerOf bytes).mapperId ≠ 0) :
    create bytes chrRam prgRam = .error .unsupportedMapper := by
  unfold create
  rw [if_neg (Nat.not_lt.mpr hlen), if_neg (not_not.mpr hmagic), if_pos h]

variable (hmapper : (headerOf bytes).mapperId = 0)
include hmapper

theorem create_of_prgBanks_unsupported (h : (headerOf bytes).prgBanks ≠ 1 ∧ (headerOf bytes).prgBanks ≠ 2) :
    create bytes chrRam prgRam = .error .unsupportedPrgSize := by
  unfold create
  rw [if_neg (Nat.not_lt.mpr hlen), if_neg (not_not.mpr hmagic), if_neg (not_not.mpr hmapper), if_pos h]

variable (hprg : (headerOf bytes).prgBanks = 1 ∨ (headerOf bytes).prgBanks = 2)
include hprg

theorem create_of_image_short
    (h : bytes.length < prgOffset (headerOf bytes) + prgSize (headerOf bytes) + chrSize (headerOf bytes)) :
    create bytes chrRam prgRam = .error .truncated := by
  unfold create
  rw [if_neg (Nat.not_lt.mpr hlen), if_neg (not_not.mpr hmagic), if_neg (not_not.mpr hmapper), if_neg (by omega),
    if_pos h]

/-- An image that passes every check: the header is its own, and each ROM is a region of it (R103). -/
theorem create_of_image_whole
    (h : prgOffset (headerOf bytes) + prgSize (headerOf bytes) + chrSize (headerOf bytes) ≤ bytes.length) :
    ∃ c : Cartridge, create bytes chrRam prgRam = .ok c ∧ c.header = headerOf bytes ∧
      (∀ k < prgSize (headerOf bytes), c.prg.read k = bytes.getD (prgOffset (headerOf bytes) + k) 0) ∧
      (0 < (headerOf bytes).chrBanks → ∀ k < chrSize (headerOf bytes),
        c.chr.read k = bytes.getD (prgOffset (headerOf bytes) + prgSize (headerOf bytes) + k) 0) ∧
      ((headerOf bytes).chrBanks = 0 → c.chr = chrRam) ∧ c.prgRam = prgRam := by
  unfold create
  rw [if_neg (Nat.not_lt.mpr hlen), if_neg (not_not.mpr hmagic), if_neg (not_not.mpr hmapper), if_neg (by omega),
    if_neg (Nat.not_lt.mpr h)]
  refine ⟨_, rfl, rfl, fun k hk => read_ofBytes_slice bytes _ hk, fun hchr k hk => ?chrRom, fun hchr => ?chrRam, rfl⟩
  case chrRom =>
    rw [if_pos hchr]
    exact read_ofBytes_slice bytes _ hk
  case chrRam => exact if_neg (Nat.not_lt.mpr (Nat.le_of_eq hchr))

end
end

/-- Settles O3: each check of Create on its own; the header's fields are those of the image, its mapper id being 0. -/
theorem createChecksAndBuildsCartridge : Obligations.CreateChecksAndBuildsCartridge := by
  intro bytes chrRam prgRam f6 f7 prgBanks chrBanks mapper off made
  refine ⟨create_of_short, fun hlen => ⟨create_of_magic_ne hlen, fun hmagic =>
    ⟨create_of_mapperId_ne_zero hlen hmagic, fun hmapper =>
      ⟨create_of_prgBanks_unsupported hlen hmagic hmapper, fun hprg =>
        ⟨create_of_image_short hlen hmagic hmapper hprg, fun hlong => ?_⟩⟩⟩⟩⟩
  obtain ⟨c, hmade, hheader, hrest⟩ := create_of_image_whole hlen hmagic hmapper hprg hlong
  have mapperIsZero := congrArg (fun m => ({ headerOf bytes with mapperId := m } : Header)) hmapper
  exact ⟨c, hmade, hheader.trans mapperIsZero, hrest⟩

end Sys2Proof.Machine
end

section
/-!
PROOF. The Bus decoder (spec/20_memory.md R60 to R74): which target each address has, said once by range
(`busTarget_cases`); and from it the values and effects of reads and writes (R78), the mirrors of RAM (R61), and the
fetch (R84, R122).
-/

namespace Sys2Proof.Machine

/-! ## The decoder by range, R60 -/

theorem busTarget_cases (s : State) (addr : Addr) :
    (addr.toNat ≤ 0x1FFF ∧ s.busTarget addr = .ram (addr.toNat % 0x0800)) ∨
    (0x2000 ≤ addr.toNat ∧ addr.toNat ≤ 0x3FFF ∧ s.busTarget addr = .ppuReg (addr.toNat % 8)) ∨
    (addr.toNat = 0x4014 ∧ s.busTarget addr = .oamDma) ∨
    (addr.toNat = 0x4016 ∧ s.busTarget addr = .controller) ∨
    (0x4000 ≤ addr.toNat ∧ addr.toNat ≤ 0x5FFF ∧ addr.toNat ≠ 0x4014 ∧ addr.toNat ≠ 0x4016 ∧
      s.busTarget addr = .unmapped) ∨
    (0x6000 ≤ addr.toNat ∧ addr.toNat ≤ 0x7FFF ∧ s.params.prgRamPresent = true ∧
      s.busTarget addr = .prgRam (addr.toNat - 0x6000)) ∨
    (0x6000 ≤ addr.toNat ∧ addr.toNat ≤ 0x7FFF ∧ s.params.prgRamPresent = false ∧ s.busTarget addr = .unmapped) ∨
    (0x8000 ≤ addr.toNat ∧ s.busTarget addr = .prgRom (mapPrgAddress s.cart.header addr)) := by
  unfold State.busTarget
  rw [ramIndex, ppuRegIndex]
  split_ifs <;> simp [*] <;> omega

theorem busTarget_ppuReg (s : State) {addr : Addr} (lo : 0x2000 ≤ addr.toNat) (hi : addr.toNat ≤ 0x3FFF) :
    s.busTarget addr = .ppuReg (addr.toNat % 8) := by
  unfold State.busTarget
  rw [if_neg (by omega), if_pos hi, ppuRegIndex]

theorem busTarget_unmapped (s : State) {addr : Addr} (lo : 0x4000 ≤ addr.toNat) (hi : addr.toNat ≤ 0x5FFF)
    (hdma : addr.toNat ≠ 0x4014) (hpad : addr.toNat ≠ 0x4016) : s.busTarget addr = .unmapped := by
  unfold State.busTarget
  rw [if_neg (by omega), if_neg (by omega), if_neg hdma, if_neg hpad, if_pos hi]

theorem busTarget_prgRam_absent {s : State} (hp : s.params.prgRamPresent = false) {addr : Addr}
    (lo : 0x6000 ≤ addr.toNat) (hi : addr.toNat ≤ 0x7FFF) : s.busTarget addr = .unmapped := by
  unfold State.busTarget
  rw [if_neg (by omega), if_neg (by omega), if_neg (by omega), if_neg (by omega), if_neg (by omega), if_pos hi, hp]
  rfl

theorem range_of_busTarget_ppuReg {s : State} {addr : Addr} {r : Nat} (h : s.busTarget addr = .ppuReg r) :
    0x2000 ≤ addr.toNat ∧ addr.toNat ≤ 0x3FFF := by
  unfold State.busTarget at h
  split_ifs at h
  omega

theorem eq_of_busTarget_oamDma {s : State} {addr : Addr} (h : s.busTarget addr = .oamDma) : addr.toNat = 0x4014 := by
  unfold State.busTarget at h
  split_ifs at h
  assumption

theorem range_of_busTarget_prgRom {s : State} {addr : Addr} {i : Nat} (h : s.busTarget addr = .prgRom i) :
    0x8000 ≤ addr.toNat := by
  unfold State.busTarget at h
  split_ifs at h
  omega

/-- R71: the bank mask of the header. -/
theorem mapPrgAddress_eq_mask (h : Header) (addr : Addr) :
    mapPrgAddress h addr = (addr &&& if h.prgBanks = 1 then 0x3FFF#16 else 0x7FFF#16).toNat := by
  unfold mapPrgAddress
  split <;> rfl

/-- Settles O38: the three accesses at each target, over the ranges of the decoder. -/
theorem busDecodesEveryAddress : Obligations.BusDecodesEveryAddress := by
  intro s addr v
  dsimp only
  rw [ramIndex, ppuRegIndex, ← mapPrgAddress_eq_mask]
  rcases busTarget_cases s addr with ⟨h, ht⟩ | ⟨lo, hi, ht⟩ | ⟨h, ht⟩ | ⟨h, ht⟩ | ⟨lo, hi, hdma, hpad, ht⟩ |
    ⟨lo, hi, hp, ht⟩ | ⟨lo, hi, hp, ht⟩ | ⟨lo, ht⟩
  all_goals
    simp (disch := omega) only [State.cpuRead, State.afterRead, State.cpuWrite, State.signalIllegalWrite, *, if_pos,
      if_neg, if_true, Bool.false_eq_true, if_false, true_and]

/-! ## The fetch, R84 and R122 -/

/-- A read of memory has no effect (R78). -/
theorem afterRead_of_holdsByte {s : State} {addr : Addr} (h : s.holdsByte addr = true) : s.afterRead addr = s := by
  unfold State.holdsByte at h
  unfold State.afterRead
  cases ht : s.busTarget addr <;> simp [ht] at h ⊢

theorem afterFetchByte_of_holdsByte {s : State} (h : s.holdsByte s.pc = true) :
    s.afterFetchByte = { s with pc := s.pc + 1 } := by
  rw [State.afterFetchByte, afterRead_of_holdsByte h]
  rfl

/-- Settles O9: a fetched byte is a bus read, and where it is memory the fetch changes PC alone. -/
theorem fetchReadsSuccessiveBytes : Obligations.FetchReadsSuccessiveBytes := by
  refine ⟨fun s => ⟨rfl, rfl⟩, fun s h0 h1 h2 => ?_⟩
  have pc2 : s.pc + 1 + 1 = s.pc + 2 := by bv_omega
  have pc3 : s.pc + 2 + 1 = s.pc + 3 := by bv_omega
  have fetch0 : s.afterFetchByte = { s with pc := s.pc + 1 } := afterFetchByte_of_holdsByte h0
  have fetch1 : ({ s with pc := s.pc + 1 } : State).afterFetchByte = { s with pc := s.pc + 2 } := by
    rw [← pc2]
    exact afterFetchByte_of_holdsByte (s := { s with pc := s.pc + 1 }) h1
  have fetch2 : ({ s with pc := s.pc + 2 } : State).afterFetchByte = { s with pc := s.pc + 3 } := by
    rw [← pc3]
    exact afterFetchByte_of_holdsByte (s := { s with pc := s.pc + 2 }) h2
  simp only [State.fetchBytes, State.afterFetch, fetch0, fetch1, fetch2, and_true]
  rfl

/-! ## The mirrors of RAM, R61 -/

/-- Settles O40: a store and a read below 0x2000 are of RAM at the address modulo 0x0800. -/
theorem ramIsMirroredAndFetchSeesStores : Obligations.RamIsMirroredAndFetchSeesStores := by
  intro s a b v ha hb
  have mirrored :
      (s.cpuWrite a v).cpuRead b = if a.toNat % 0x0800 = b.toNat % 0x0800 then v else s.cpuRead b := by
    simp only [State.cpuWrite, State.cpuRead, busTarget_ram _ ha, busTarget_ram _ hb, read_write,
      eq_comm (a := b.toNat % 0x0800)]
  exact ⟨mirrored, mirrored⟩

/-! ## Accesses with an effect, R78 -/

/-- Of the PPU registers only status and data have a read effect (R350). -/
theorem afterPpuRegRead_of_ne {s : State} {r : Nat} (h2 : r ≠ 2) (h7 : r ≠ 7) : s.afterPpuRegRead r = s := by
  unfold State.afterPpuRegRead
  split
  · exact absurd rfl h2
  · exact absurd rfl h7
  · rfl

/-- R357: a data read always moves the address on. -/
theorem afterDataRead_ne (s : State) : s.afterDataRead ≠ s := by
  intro h
  have ha : s.ppu.vramAddr + s.ppu.increment = s.ppu.vramAddr := congrArg (·.ppu.vramAddr) h
  unfold Ppu.increment at ha
  split at ha <;> bv_omega

/-- The machine after reset with any parameters. Every location a write can change holds 0 there (R372). -/
def State.resetWith (params : Config.Params) : State := { State.reset with params := params }

/-- A write of 1 to any PPU register but the status register changes the reset state. -/
theorem ppuRegWrite_resetWith_ne (params : Config.Params) {r : Nat} (hr : r < 8) (h2 : r ≠ 2) :
    (State.resetWith params).ppuRegWrite r 1 ≠ State.resetWith params := by
  have table : ∀ present reads : Bool, ∀ r < 8, r ≠ 2 →
      (State.resetWith ⟨present, reads⟩).ppuRegWrite r 1 ≠ State.resetWith ⟨present, reads⟩ := by decide
  exact table params.prgRamPresent params.nopReadsOperand r hr h2

/-- Where a write of 1 leaves the reset state as it was, the address is one of those whose writes have no effect. -/
theorem inert_of_cpuWrite_resetWith {params : Config.Params} {addr : Addr}
    (h : (State.resetWith params).cpuWrite addr 1 = State.resetWith params) :
    (0x2000 ≤ addr.toNat ∧ addr.toNat ≤ 0x3FFF ∧ addr.toNat % 8 = 2) ∨
      (0x4000 ≤ addr.toNat ∧ addr.toNat ≤ 0x5FFF ∧ addr.toNat ≠ 0x4014 ∧ addr.toNat ≠ 0x4016) ∨
      (params.prgRamPresent = false ∧ 0x6000 ≤ addr.toNat ∧ addr.toNat ≤ 0x7FFF) := by
  have stored {m : Memory} {i : Nat} (hm : m.write i 1 = []) : False := by
    have h1 : (m.write i 1).read i = (1 : Byte) := read_write_same m i 1
    rw [hm] at h1
    cases h1
  rcases busTarget_cases (State.resetWith params) addr with ⟨-, ht⟩ | ⟨lo, hi, ht⟩ | ⟨-, ht⟩ | ⟨-, ht⟩ |
    ⟨lo, hi, hdma, hpad, ht⟩ | ⟨-, -, -, ht⟩ | ⟨lo, hi, hp, ht⟩ | ⟨-, ht⟩
  all_goals simp only [State.cpuWrite, ht] at h
  · exact (stored (congrArg State.ram h)).elim
  · by_contra hne
    exact ppuRegWrite_resetWith_ne params (Nat.mod_lt _ (by decide)) (fun h2 => hne (.inl ⟨lo, hi, h2⟩)) h
  · cases congrArg State.dmaThisStep h
  · cases congrArg (·.pad.strobe) h
  · exact .inr (.inl ⟨lo, hi, hdma, hpad⟩)
  · exact (stored (congrArg (·.cart.prgRam) h)).elim
  · exact .inr (.inr ⟨hp, lo, hi⟩)
  · cases congrArg State.illegalWrite h

/-- R78: a read changes the state only at the status and data registers and at the controller. -/
theorem afterRead_ne_cases {s : State} {addr : Addr} (h : s.afterRead addr ≠ s) :
    (0x2000 ≤ addr.toNat ∧ addr.toNat ≤ 0x3FFF ∧ (addr.toNat % 8 = 2 ∨ addr.toNat % 8 = 7)) ∨
      addr.toNat = 0x4016 := by
  rcases busTarget_cases s addr with ⟨-, ht⟩ | ⟨lo, hi, ht⟩ | ⟨-, ht⟩ | ⟨hpad, -⟩ | ⟨-, -, -, -, ht⟩ | ⟨-, -, -, ht⟩ |
    ⟨-, -, -, ht⟩ | ⟨-, ht⟩
  case inr.inl =>
    by_contra hne
    refine h ?_
    simp only [State.afterRead, ht]
    exact afterPpuRegRead_of_ne (by omega) (by omega)
  case inr.inr.inr.inl => exact .inr hpad
  all_goals exact absurd (by simp only [State.afterRead, ht]) h

/-- Settles O41: each effect is witnessed after reset, and the other accesses are inert by the decoder. -/
theorem onlyNamedLocationsHaveReadEffects : Obligations.OnlyNamedLocationsHaveReadEffects := by
  refine ⟨fun addr => ⟨fun ⟨s, h⟩ => afterRead_ne_cases h, ?reads⟩, fun params addr =>
    ⟨fun h => inert_of_cpuWrite_resetWith (h (State.resetWith params) 1 rfl), ?writes⟩⟩
  case reads =>
    rintro (⟨lo, hi, h2 | h7⟩ | hpad)
    · refine ⟨State.reset.setPpu { State.reset.ppu with scrollW := true }, fun h => ?_⟩
      simp only [State.afterRead, busTarget_ppuReg _ lo hi, h2] at h
      cases congrArg (·.ppu.scrollW) h
    · refine ⟨State.reset, ?_⟩
      simp only [State.afterRead, busTarget_ppuReg _ lo hi, h7]
      exact afterDataRead_ne _
    · obtain rfl : addr = 0x4016 := BitVec.eq_of_toNat_eq hpad
      exact ⟨State.reset, by decide⟩
  case writes =>
    rintro (⟨lo, hi, h2⟩ | ⟨lo, hi, hdma, hpad⟩ | ⟨hp, lo, hi⟩) s v rfl
    · simp only [State.cpuWrite, busTarget_ppuReg s lo hi, h2]
      rfl
    · simp only [State.cpuWrite, busTarget_unmapped s lo hi hdma hpad]
    · simp only [State.cpuWrite, busTarget_prgRam_absent hp lo hi]

end Sys2Proof.Machine
end

section
/-!
PROOF. OAM DMA (spec/20_memory.md R80): the copies in order are a fold over the byte's index, and each OAM byte is
written once; from a page whose reads have no effect every copy reads the memory as it was.
-/

namespace Sys2Proof.Machine

/-! ## The copies as a fold -/

theorem dmaCopies_eq_foldl (s : State) (base : Addr) (n : Nat) :
    s.dmaCopies base n = (List.range n).foldl (fun u i => u.dmaCopy base i) s := by
  induction n with
  | zero => rfl
  | succ n ih => rw [State.dmaCopies, ih, List.range_succ, List.foldl_append]; rfl

theorem oamIndex (oamAddr : Byte) (i : Nat) : (oamAddr + BitVec.ofNat 8 i).toNat = (oamAddr.toNat + i) % 256 := by
  rw [BitVec.toNat_add, BitVec.toNat_ofNat]
  omega

theorem joinBytes_zero (page : Byte) : joinBytes page 0x00 = page.setWidth 16 <<< 8 := by
  apply BitVec.eq_of_toNat_eq
  have := page.isLt
  rw [joinBytes_toNat, BitVec.toNat_shiftLeft, BitVec.toNat_setWidth, Nat.shiftLeft_eq,
    show (0x00 : Byte).toNat = 0 from rfl]
  omega

/-- One copy: a bus read with its effects, and its byte in OAM `i` past the OAM address, which no read moves. -/
theorem dmaCopy_eq (s : State) (base : Addr) (i : Nat) :
    s.dmaCopy base i = (s.afterRead (base + BitVec.ofNat 16 i)).setPpu
      { (s.afterRead (base + BitVec.ofNat 16 i)).ppu with
        oam := (s.afterRead (base + BitVec.ofNat 16 i)).ppu.oam.write ((s.ppu.oamAddr.toNat + i) % 256)
          (s.cpuRead (base + BitVec.ofNat 16 i)) } := by
  unfold State.dmaCopy
  dsimp only
  rw [(afterRead_frame s _).ppu_oamAddr, oamIndex]

theorem dmaCopies_oamAddr (s : State) (base : Addr) (n : Nat) :
    (s.dmaCopies base n).ppu.oamAddr = s.ppu.oamAddr := by
  induction n with
  | zero => rfl
  | succ n ih =>
    rw [State.dmaCopies, dmaCopy_eq]
    exact (afterRead_frame _ _).ppu_oamAddr.trans ih

theorem cpuWrite_oamDma (s : State) (page : Byte) :
    s.cpuWrite 0x4014 page = (s.dmaCopies (joinBytes page 0x00) 256).setDmaThisStep true := by
  have ht : s.busTarget 0x4014 = .oamDma := by simp [State.busTarget]
  simp only [State.cpuWrite, ht, State.oamDma]

/-! ## From a page that is no device -/

/-- No register of the PPU and not the controller: what a read of the address gives and does rests on memory alone. -/
def NoDevice (addr : Addr) : Prop := ¬(0x2000 ≤ addr.toNat ∧ addr.toNat ≤ 0x3FFF) ∧ addr.toNat ≠ 0x4016

theorem noDevice_of_page {page : Byte} (hpage : page.toNat < 0x20 ∨ 0x41 ≤ page.toNat) {i : Nat} (hi : i < 256) :
    NoDevice (joinBytes page 0x00 + BitVec.ofNat 16 i) := by
  have hp := page.isLt
  have ha : (joinBytes page 0x00 + BitVec.ofNat 16 i).toNat = page.toNat * 256 + i := by
    rw [BitVec.toNat_add, joinBytes_toNat, BitVec.toNat_ofNat, show (0x00 : Byte).toNat = 0 from rfl]
    omega
  unfold NoDevice
  omega

section
variable {addr : Addr} (h : NoDevice addr)
include h

theorem NoDevice.afterRead (s : State) : s.afterRead addr = s := by
  by_contra hne
  obtain ⟨hppu, hpad⟩ := h
  rcases afterRead_ne_cases hne with ⟨lo, hi, -⟩ | heq
  · exact hppu ⟨lo, hi⟩
  · exact hpad heq

theorem NoDevice.cpuRead_setPpu (s : State) (p : Ppu) : (s.setPpu p).cpuRead addr = s.cpuRead addr := by
  have ht : (s.setPpu p).busTarget addr = s.busTarget addr := rfl
  unfold State.cpuRead
  rw [ht]
  cases hr : s.busTarget addr
  case ppuReg r =>
    exact absurd (range_of_busTarget_ppuReg hr) h.1
  all_goals rfl

end

/-- R80: the copies change OAM alone, and the bytes copied so far are those of the page. -/
theorem dmaCopies_of_noDevice (s : State) {base : Addr} (hbase : ∀ i < 256, NoDevice (base + BitVec.ofNat 16 i))
    {n : Nat} (hn : n ≤ 256) :
    ∃ m : Memory, s.dmaCopies base n = s.setPpu { s.ppu with oam := m } ∧
      ∀ i < n, m.read ((s.ppu.oamAddr.toNat + i) % 256) = s.cpuRead (base + BitVec.ofNat 16 i) := by
  induction n with
  | zero => exact ⟨s.ppu.oam, rfl, fun i hi => absurd hi (Nat.not_lt_zero i)⟩
  | succ n ih =>
    obtain ⟨m, hcopies, hread⟩ := ih (by omega)
    have quiet := hbase n (by omega)
    refine ⟨m.write ((s.ppu.oamAddr.toNat + n) % 256) (s.cpuRead (base + BitVec.ofNat 16 n)), ?_, fun i hi => ?_⟩
    · rw [State.dmaCopies, hcopies, dmaCopy_eq, quiet.afterRead, quiet.cpuRead_setPpu]
      rfl
    · by_cases hin : i = n
      · rw [hin, read_write_same]
      · rw [read_write_other _ _ (by omega), hread i (by omega)]

/-- Settles O42: the copies as a fold; from a page of memory, what the 256 of them leave. -/
theorem oamDmaCopiesPage : Obligations.OamDmaCopiesPage := by
  intro s page t base copy
  have ht : t = (s.dmaCopies base 256).setDmaThisStep true := by
    rw [show base = joinBytes page 0x00 from (joinBytes_zero page).symm]
    exact cpuWrite_oamDma s page
  have hcopy : (fun u i => u.dmaCopy base i) = copy := funext fun u => funext fun i => dmaCopy_eq u base i
  refine ⟨?fold, ?oamAddr, fun hpage => ?memory⟩
  case fold =>
    rw [ht, dmaCopies_eq_foldl, hcopy]
    generalize (List.range 256).foldl copy s = u
    rfl
  case oamAddr =>
    rw [ht]
    exact dmaCopies_oamAddr s base 256
  case memory =>
    have hbase : ∀ i < 256, NoDevice (base + BitVec.ofNat 16 i) := fun i hi => by
      rw [show base = joinBytes page 0x00 from (joinBytes_zero page).symm]
      exact noDevice_of_page hpage hi
    obtain ⟨m, hcopies, hread⟩ := dmaCopies_of_noDevice s hbase (le_refl 256)
    rw [ht, hcopies]
    exact ⟨rfl, hread⟩

end Sys2Proof.Machine
end

section
/-!
PROOF. The PPU address space (spec/20_memory.md R85 to R89): the target of each range, with the index the rule writes in
bits; the accesses at a nametable and at a palette target; and the refusal of FourScreen mirroring (R88, R302).
-/

namespace Sys2Proof.Machine

/-! ## The PPU's decoder by range, R85 -/

section
variable {m : Mirroring} {a : VAddr}

theorem ppuTarget_chr (h : a.toNat ≤ 0x1FFF) : ppuTarget m a = .chr a.toNat := if_pos h

theorem ppuTarget_nametable (lo : 0x2000 ≤ a.toNat) (hi : a.toNat ≤ 0x3EFF) {k : Nat} (hk : ntIndex m a = some k) :
    ppuTarget m a = .nametable k := by
  unfold ppuTarget
  rw [if_neg (by omega), if_pos hi, hk]

theorem ppuTarget_fourScreen (lo : 0x2000 ≤ a.toNat) (hi : a.toNat ≤ 0x3EFF) :
    ppuTarget .fourScreen a = .noTable := by
  unfold ppuTarget
  rw [if_neg (by omega), if_pos hi]
  rfl

theorem ppuTarget_palette (lo : 0x3F00 ≤ a.toNat) : ppuTarget m a = .palette (palIndex a) := by
  unfold ppuTarget
  rw [if_neg (by omega), if_neg (by omega)]

end

/-! ## The indices in bits, R88 and R89 -/

/-- R88: the offset in the nametables, its table and the offset in the table. -/
theorem nametableFields (n : Nat) :
    n &&& 0x0FFF = n % 0x1000 ∧ n >>> 10 = n / 0x400 ∧ n &&& 0x03FF = n % 0x400 ∧ n &&& 1 = n % 2 :=
  ⟨Nat.and_two_pow_sub_one_eq_mod n 12, Nat.shiftRight_eq_div_pow n 10, Nat.and_two_pow_sub_one_eq_mod n 10,
    Nat.and_two_pow_sub_one_eq_mod n 1⟩

theorem tableIndex (table : Nat) {off : Nat} (h : off < 0x400) : (table <<< 10) ||| off = table * 0x400 + off := by
  rw [← Nat.shiftLeft_add_eq_or_of_lt (i := 10) h, Nat.shiftLeft_eq]

theorem ntIndex_vertical (a : VAddr) :
    let r := (a.toNat - 0x2000) &&& 0x0FFF
    ntIndex .vertical a = some ((((r >>> 10) &&& 1) <<< 10) ||| (r &&& 0x03FF)) := by
  intro r
  rw [tableIndex _ (Nat.and_lt_two_pow r (show 0x03FF < 2 ^ 10 by decide))]
  simp only [r, nametableFields, ntIndex]

theorem ntIndex_horizontal (a : VAddr) :
    let r := (a.toNat - 0x2000) &&& 0x0FFF
    ntIndex .horizontal a = some ((((r >>> 10) >>> 1) <<< 10) ||| (r &&& 0x03FF)) := by
  intro r
  rw [tableIndex _ (Nat.and_lt_two_pow r (show 0x03FF < 2 ^ 10 by decide)), Nat.shiftRight_eq_div_pow _ 1]
  simp only [r, nametableFields, ntIndex]

theorem palIndex_eq (a : VAddr) :
    let i := a.toNat &&& 0x1F
    palIndex a = if i = 0x10 ∨ i = 0x14 ∨ i = 0x18 ∨ i = 0x1C then i - 0x10 else i := by
  rw [show a.toNat &&& 0x1F = a.toNat % 0x20 from Nat.and_two_pow_sub_one_eq_mod a.toNat 5]
  rfl

/-! ## The accesses at a target -/

section
variable {s : State} {a b : VAddr} {k : Nat} (v : Byte)

theorem access_chr (h : ppuTarget s.mirroring a = .chr k) :
    s.ppuRead a = s.cart.chr.read k ∧ s.afterPpuRead a = s ∧
      s.ppuWrite a v =
        if s.cart.header.chrBanks = 0 then { s with cart := { s.cart with chr := s.cart.chr.write k v } }
        else { s with illegalWrite := true, illegalWrites := s.illegalWrites ++ [a.setWidth 16] } := by
  simp only [State.ppuRead, State.afterPpuRead, State.ppuWrite, h, State.signalIllegalWrite, true_and]

theorem access_nametable (h : ppuTarget s.mirroring a = .nametable k) :
    s.ppuRead a = s.ppu.vram.read k ∧ s.afterPpuRead a = s ∧
      s.ppuWrite a v = { s with ppu := { s.ppu with vram := s.ppu.vram.write k v } } := by
  simp only [State.ppuRead, State.afterPpuRead, State.ppuWrite, h, State.setPpu, true_and]

theorem access_palette (h : ppuTarget s.mirroring a = .palette k) :
    s.ppuRead a = s.ppu.palette.read k ∧ s.afterPpuRead a = s ∧
      s.ppuWrite a v = { s with ppu := { s.ppu with palette := s.ppu.palette.write k v } } := by
  simp only [State.ppuRead, State.afterPpuRead, State.ppuWrite, h, State.setPpu, true_and]

theorem access_noTable (h : ppuTarget s.mirroring a = .noTable) (hr : s.refused = none) :
    s.afterPpuRead a = { s with refused := some .fourScreenUnsupported } ∧
      s.ppuWrite a v = { s with refused := some .fourScreenUnsupported } := by
  simp only [State.afterPpuRead, State.ppuWrite, h, State.raise, hr, Option.getD_none, true_and]

/-- A byte written at one address of a nametable byte is read at every other (R88). -/
theorem ppuRead_ppuWrite_nametable (ha : ppuTarget s.mirroring a = .nametable k)
    (hb : ppuTarget s.mirroring b = .nametable k) : (s.ppuWrite a v).ppuRead b = v := by
  obtain ⟨hread, -, -⟩ := access_nametable (s := s.ppuWrite a v) v ((ppuWrite_frame s a v).mirroring ▸ hb)
  obtain ⟨-, -, hwrite⟩ := access_nametable v ha
  rw [hread, hwrite]
  exact read_write_same _ k v

/-- A byte written at one address of a palette entry is read at every other (R89). -/
theorem ppuRead_ppuWrite_palette (ha : ppuTarget s.mirroring a = .palette k)
    (hb : ppuTarget s.mirroring b = .palette k) : (s.ppuWrite a v).ppuRead b = v := by
  obtain ⟨hread, -, -⟩ := access_palette (s := s.ppuWrite a v) v ((ppuWrite_frame s a v).mirroring ▸ hb)
  obtain ⟨-, -, hwrite⟩ := access_palette v ha
  rw [hread, hwrite]
  exact read_write_same _ k v

end

/-! ## The mirrors, R88 and R89 -/

section
variable {a b : VAddr} (ha : 0x2000 ≤ a.toNat) (hb : 0x2000 ≤ b.toNat)
include ha hb

/-- Under Vertical mirroring tables 0x800 apart are one. -/
theorem ntIndex_vertical_of_mod_eq (h : a.toNat % 0x0800 = b.toNat % 0x0800) :
    ntIndex .vertical a = ntIndex .vertical b := by
  simp only [ntIndex, Option.some.injEq]
  omega

/-- Under Horizontal mirroring the two tables of a pair are one. -/
theorem ntIndex_horizontal_of_mod_eq (h : a.toNat % 0x0400 = b.toNat % 0x0400)
    (hpair : a.toNat / 0x0800 % 2 = b.toNat / 0x0800 % 2) : ntIndex .horizontal a = ntIndex .horizontal b := by
  simp only [ntIndex, Option.some.injEq]
  omega

end

/-- The palette repeats every 32 bytes, and each fourth entry is that of the other half. -/
theorem palIndex_of_mod_eq {a b : VAddr} (h : a.toNat % 32 = b.toNat % 32 ∨
    (a.toNat % 4 = 0 ∧ b.toNat % 4 = 0 ∧ a.toNat % 16 = b.toNat % 16)) : palIndex a = palIndex b := by
  simp only [palIndex]
  split <;> split <;> omega

/-- Settles O43: the accesses at the target of each range, and equal targets for the mirrors. -/
theorem ppuAddressSpaceDecodes : Obligations.PpuAddressSpaceDecodes := by
  intro s a v n r table off i pal
  refine ⟨fun h => access_chr v (ppuTarget_chr h), fun lo hi => ⟨?vertical, ?horizontal, ?fourScreen⟩, ?palette,
    fun b c hb hb' hc hc' => ⟨?verticalMirror, ?horizontalMirror⟩, ?paletteMirror⟩
  case vertical => exact fun hm => access_nametable v (ppuTarget_nametable lo hi (hm ▸ ntIndex_vertical a))
  case horizontal => exact fun hm => access_nametable v (ppuTarget_nametable lo hi (hm ▸ ntIndex_horizontal a))
  case fourScreen => exact fun hm => access_noTable v (hm ▸ ppuTarget_fourScreen lo hi)
  case palette => exact fun lo => access_palette v ((ppuTarget_palette lo).trans (congrArg _ (palIndex_eq a)))
  case verticalMirror =>
    intro hm hbc
    have index := ntIndex_vertical b
    refine ppuRead_ppuWrite_nametable v (ppuTarget_nametable hb hb' (hm ▸ index)) (ppuTarget_nametable hc hc' ?_)
    rw [hm, ← ntIndex_vertical_of_mod_eq hb hc hbc, index]
  case horizontalMirror =>
    intro hm hbc hpair
    have index := ntIndex_horizontal b
    refine ppuRead_ppuWrite_nametable v (ppuTarget_nametable hb hb' (hm ▸ index)) (ppuTarget_nametable hc hc' ?_)
    rw [hm, ← ntIndex_horizontal_of_mod_eq hb hc hbc hpair, index]
  case paletteMirror =>
    intro b c hb hc hbc
    refine ppuRead_ppuWrite_palette v (ppuTarget_palette hb) ?_
    rw [palIndex_of_mod_eq hbc]
    exact ppuTarget_palette hc

/-! ## FourScreen mirroring, R88 and R302 -/

theorem finish_of_some {s : State} {r : Refusal} (h : s.refused = some r) : finish s = .refused r := by
  unfold finish
  rw [h]

section
variable (s : State) {addr : Addr} (lo : 0x2000 ≤ addr.toNat) (hi : addr.toNat ≤ 0x3FFF) (h7 : addr.toNat % 8 = 7)
include lo hi h7

/-- LDA Absolute at the data register refuses as the PPU read at the VRAM address does. -/
theorem exec_ldaAbs_data :
    ∃ t, exec (.ldaAbs addr) s = finish t ∧ t.refused = (s.afterPpuRead s.ppu.vramAddr).refused := by
  have hread : s.afterRead addr = s.afterDataRead := by
    simp only [State.afterRead, busTarget_ppuReg s lo hi, h7]
    rfl
  refine ⟨_, rfl, ?_⟩
  show (s.afterRead addr).refused = _
  rw [hread]
  rfl

/-- STA Absolute at the data register refuses as the PPU write at the VRAM address does. -/
theorem exec_staAbs_data :
    ∃ t, exec (.staAbs addr) s = finish t ∧ t.refused = (s.ppuWrite s.ppu.vramAddr s.a).refused := by
  have hwrite : (s.cpuWrite addr s.a).refused = (s.ppuWrite s.ppu.vramAddr s.a).refused := by
    simp only [State.cpuWrite, busTarget_ppuReg s lo hi, h7]
    rfl
  exact ⟨_, rfl, hwrite⟩

end

/-- Settles O44: LDA and STA refuse exactly as their PPU access does, which only a nametable address makes refuse. -/
theorem fourScreenNametableAccessRefuses : Obligations.FourScreenNametableAccessRefuses := by
  intro s addr hr hm lo hi h7
  obtain ⟨t, hlda, ht⟩ := exec_ldaAbs_data s lo hi h7
  obtain ⟨u, hsta, hu⟩ := exec_staAbs_data s lo hi h7
  rw [hlda, hsta]
  refine ⟨fun ⟨vlo, vhi⟩ => ?refuses, fun hv => ?runs⟩
  case refuses =>
    obtain ⟨hread, hwrite⟩ := access_noTable s.a (hm ▸ ppuTarget_fourScreen vlo vhi) hr
    rw [hread] at ht
    rw [hwrite] at hu
    exact ⟨finish_of_some ht, finish_of_some hu⟩
  case runs =>
    have kept : (s.afterPpuRead s.ppu.vramAddr).refused = none ∧ (s.ppuWrite s.ppu.vramAddr s.a).refused = none := by
      rcases hv with hv | hv
      · obtain ⟨-, hread, hwrite⟩ := access_chr s.a (ppuTarget_chr (Nat.le_of_lt_succ hv))
        rw [hread, hwrite]
        split <;> exact ⟨hr, hr⟩
      · obtain ⟨-, hread, hwrite⟩ := access_palette s.a (ppuTarget_palette hv)
        rw [hread, hwrite]
        exact ⟨hr, hr⟩
    exact ⟨⟨t, finish_of_none (ht.trans kept.1)⟩, ⟨u, finish_of_none (hu.trans kept.2)⟩⟩

end Sys2Proof.Machine
end

section
/-!
PROOF. The memory frames of an instruction (spec/20_memory.md R72, R78, spec/40_addressing_modes.md R156): its bus
accesses are reads at `readAddrs` and writes at `storedAddrs`, so what those accesses keep it keeps
(`effect_keeps_of_accesses`); and what one access at memory keeps is read off the decoder.
-/

open Sys2Proof.Rules

namespace Sys2Proof.Machine

/-! ## The accesses of an instruction -/

/-- The operations that read M (R156). -/
def readsOperand : Operation → Bool
  | .lda | .ldx | .ldy | .adc | .sbc | .and | .eor | .ora | .cmp | .cpx | .cpy | .bit | .lax
  | .asl | .lsr | .rol | .ror | .inc | .dec | .dcp | .isb | .slo | .rla | .sre | .rra => true
  | _ => false

theorem mem_readAddrs_of_readsOperand {i : Instr} {s : State} {ea : Addr} (h : readsOperand i.operation = true)
    (ho : ∀ v, i.operand ≠ .immediate v) (hea : (resolve i.operand s).ea = some ea) : ea ∈ readAddrs i s := by
  rw [← loadOperand_ea] at hea
  unfold readAddrs
  refine List.mem_append_right _ ?_
  cases hop : i.operation
  case lda | ldx | ldy | adc | sbc | and | eor | ora | cmp | cpx | cpy | bit | lax | asl | lsr | rol | ror | inc | dec |
      dcp | isb | slo | rla | sre | rra =>
    dsimp only
    split
    next v hv => exact absurd hv (ho v)
    next => simp [hea]
  all_goals simp [hop, readsOperand] at h

/-- What every register change, every read at a `readAddrs` address and every write at a `storedAddrs` address keeps
holds after the instruction: it makes no other access but reads of the zero page and the stack, which have no effect. -/
theorem effect_keeps_of_accesses {I : State → Prop} {i : Instr} {s : State}
    (regs : ∀ {t u}, RegFrame t u → I t → I u)
    (read : ∀ {t addr}, addr ∈ readAddrs i s → I t → I (t.afterRead addr))
    (write : ∀ {t addr} v, addr ∈ storedAddrs i s → I t → I (t.cpuWrite addr v)) (init : I s) :
    I (effect i.operation i.operand s) := by
  have hsp := (resolve_frame i.operand s).sp
  have push {t : State} (v : Byte) (hmem : stackAddr t.sp ∈ storedAddrs i s) (h : I t) : I (t.push v) :=
    regs rfl (write v hmem h)
  have writeOperand {t : State} {ea : Option Addr} (v : Byte) (hmem : ∀ a ∈ ea, a ∈ storedAddrs i s) (h : I t) :
      I (t.writeOperand ea v) := by
    cases ea
    case none => exact regs rfl h
    case some addr => exact write v (hmem addr rfl) h
  have resolved : I (resolve i.operand s).st := by
    cases ho : i.operand
    case indirect ptr =>
      have hptr : ptr ∈ readAddrs i s ∧ indirectHi ptr ∈ readAddrs i s := by simp [readAddrs, ho]
      exact read hptr.2 (read hptr.1 init)
    case indexedIndirectX | indirectIndexedY =>
      simp only [resolve, afterReadPair_zext]
      exact init
    all_goals exact init
  have loaded (hop : readsOperand i.operation = true) : I (loadOperand i.operand s).st := by
    cases hea : (resolve i.operand s).ea
    case none =>
      rw [loadOperand_of_ea_none hea]
      exact init
    case some ea =>
      by_cases ho : ∃ v, i.operand = .immediate v
      · obtain ⟨v, ho⟩ := ho
        rw [ho, loadOperand_immediate]
        exact init
      · have ho := not_exists.mp ho
        rw [loadOperand_of_ea_some ho hea]
        exact read (mem_readAddrs_of_readsOperand hop ho hea) resolved
  refine regs (effect_busPart i.operation i.operand s) ?_
  cases hop : i.operation
  case lda | ldx | ldy | adc | sbc | and | eor | ora | cmp | cpx | cpy | bit | lax => exact loaded (by rw [hop]; rfl)
  case sta | stx | sty | sax => exact writeOperand _ (by simp [storedAddrs, hop]) resolved
  case asl | lsr | rol | ror | inc | dec | dcp | isb | slo | rla | sre | rra =>
    exact writeOperand _ (by simp [storedAddrs, hop]) (loaded (by rw [hop]; rfl))
  case pha | php => exact push _ (by simp [storedAddrs, hop]) init
  case jsr =>
    refine push _ ?_ (push _ ?_ resolved)
    · simp [storedAddrs, hop, push_eq, hsp]
    · simp [storedAddrs, hop, hsp]
  case brk =>
    refine push _ ?_ (push _ ?_ (push _ ?_ init))
    · simp [storedAddrs, hop, push16_eq]
    · simp [storedAddrs, hop, push_eq]
    · simp [storedAddrs, hop]
  case jmp => exact resolved
  case nop =>
    have hparams := (resolve_frame i.operand s).params
    simp only [busPart, State.afterNopRead]
    split
    · split
      next ea hea =>
        split
        next hreads => exact read (by simp [readAddrs, hop, hea, ← hparams, hreads]) resolved
        next => exact resolved
      next => exact resolved
    · exact resolved
  all_goals exact init

/-- A relation that holds across every register change, every read at a `readAddrs` address and every write at a
`storedAddrs` address holds across the instruction. The decoder stays as it was between the accesses. -/
theorem effect_rel_of_accesses {R : State → State → Prop} (trans : ∀ {t u w}, R t u → R u w → R t w)
    (regs : ∀ {t u}, RegFrame t u → R t u) {i : Instr} {s : State}
    (read : ∀ t, HostPartKept s t → ∀ addr ∈ readAddrs i s, R t (t.afterRead addr))
    (write : ∀ t, HostPartKept s t → ∀ addr ∈ storedAddrs i s, ∀ v, R t (t.cpuWrite addr v)) :
    R s (effect i.operation i.operand s) := by
  have kept := effect_keeps_of_accesses (i := i) (s := s) (I := fun t => HostPartKept s t ∧ R s t)
    (fun hreg ⟨hk, hr⟩ => ⟨hk.trans hreg.hostPartKept, trans hr (regs hreg)⟩)
    (fun hmem ⟨hk, hr⟩ => ⟨hk.trans (afterRead_frame _ _).hostPartKept, trans hr (read _ hk _ hmem)⟩)
    (fun v hmem ⟨hk, hr⟩ => ⟨hk.trans (cpuWrite_hostPartKept _ _ v), trans hr (write _ hk _ hmem v)⟩)
    ⟨.refl s, regs rfl⟩
  exact kept.2

/-! ## A byte of memory under the accesses -/

theorem busTarget_congr {s t : State} (hp : t.params = s.params) (hh : t.cart.header = s.cart.header) (addr : Addr) :
    t.busTarget addr = s.busTarget addr := by
  simp only [State.busTarget, hp, hh]

/-- RAM, PRG ROM, PRG RAM and what the decoder looks at are the same. -/
structure MemoryKept (s t : State) : Prop where
  ram : t.ram = s.ram
  prg : t.cart.prg = s.cart.prg
  prgRam : t.cart.prgRam = s.cart.prgRam
  header : t.cart.header = s.cart.header
  params : t.params = s.params

theorem MemoryKept.trans {s t u : State} (h : MemoryKept s t) (h' : MemoryKept t u) : MemoryKept s u where
  ram := h'.ram.trans h.ram
  prg := h'.prg.trans h.prg
  prgRam := h'.prgRam.trans h.prgRam
  header := h'.header.trans h.header
  params := h'.params.trans h.params

theorem MemoryKept.refl (s : State) : MemoryKept s s := ⟨rfl, rfl, rfl, rfl, rfl⟩

theorem ReadFrame.memoryKept {s t : State} (h : ReadFrame s t) : MemoryKept s t where
  ram := h.ram
  prg := by rw [h.cart]
  prgRam := by rw [h.cart]
  header := by rw [h.cart]
  params := h.params

theorem ppuWrite_memoryKept (s : State) (a : VAddr) (v : Byte) : MemoryKept s (s.ppuWrite a v) := by
  unfold State.ppuWrite
  split
  case h_1 => split <;> exact ⟨rfl, rfl, rfl, rfl, rfl⟩
  all_goals exact ⟨rfl, rfl, rfl, rfl, rfl⟩

theorem ppuRegWrite_memoryKept (s : State) (r : Nat) (v : Byte) : MemoryKept s (s.ppuRegWrite r v) := by
  unfold State.ppuRegWrite
  split
  case h_7 => exact (ppuWrite_memoryKept s _ v).trans ⟨rfl, rfl, rfl, rfl, rfl⟩
  all_goals exact ⟨rfl, rfl, rfl, rfl, rfl⟩

theorem setDmaThisStep_memoryKept (s : State) (b : Bool) : MemoryKept s (s.setDmaThisStep b) :=
  ⟨rfl, rfl, rfl, rfl, rfl⟩

theorem oamDma_memoryKept (s : State) (page : Byte) : MemoryKept s (s.oamDma page) := by
  have copies (n : Nat) : MemoryKept s (s.dmaCopies (joinBytes page 0x00) n) := by
    induction n with
    | zero => exact .refl s
    | succ n ih => exact (ih.trans (afterRead_frame _ _).memoryKept).trans ⟨rfl, rfl, rfl, rfl, rfl⟩
  exact (copies 256).trans (setDmaThisStep_memoryKept _ true)

theorem HostPartKept.busTarget {s t : State} (h : HostPartKept s t) (addr : Addr) :
    t.busTarget addr = s.busTarget addr := busTarget_congr h.params h.header addr

theorem HostPartKept.holdsByte {s t : State} (h : HostPartKept s t) (addr : Addr) :
    t.holdsByte addr = s.holdsByte addr := by
  unfold State.holdsByte
  rw [h.busTarget]

/-- An address of memory stays one, and its byte is the same. -/
def ByteKept (addr : Addr) (s t : State) : Prop :=
  s.holdsByte addr = true → t.holdsByte addr = true ∧ t.cpuRead addr = s.cpuRead addr

theorem ByteKept.trans {addr : Addr} {s t u : State} (h : ByteKept addr s t) (h' : ByteKept addr t u) :
    ByteKept addr s u := by
  intro hs
  obtain ⟨ht, htr⟩ := h hs
  obtain ⟨hu, hur⟩ := h' ht
  exact ⟨hu, hur.trans htr⟩

/-- The byte of an address of memory is one of RAM's, PRG ROM's or PRG RAM's. -/
theorem MemoryKept.byteKept {s t : State} (h : MemoryKept s t) (addr : Addr) : ByteKept addr s t := by
  have sameTarget := busTarget_congr h.params h.header addr
  unfold ByteKept State.holdsByte State.cpuRead
  rw [sameTarget]
  cases s.busTarget addr
  case ram | prgRam | prgRom => exact fun _ => ⟨rfl, by simp only [h.ram, h.prgRam, h.prg]⟩
  all_goals exact fun hb => by simp at hb

/-- A write to RAM or PRG RAM leaves the other bytes of memory, a write anywhere else all of them (R78). -/
theorem cpuWrite_byteKept {s : State} {e addr : Addr} (v : Byte) (hne : s.busTarget e ≠ s.busTarget addr) :
    ByteKept addr s (s.cpuWrite e v) := by
  have kept := cpuWrite_hostPartKept s e v
  cases he : s.busTarget e
  case ppuReg r =>
    simp only [State.cpuWrite, he]
    exact (ppuRegWrite_memoryKept s r v).byteKept addr
  case oamDma =>
    simp only [State.cpuWrite, he]
    exact (oamDma_memoryKept s v).byteKept addr
  case controller | prgRom | unmapped =>
    refine MemoryKept.byteKept ?_ addr
    simp only [State.cpuWrite, he]
    exact ⟨rfl, rfl, rfl, rfl, rfl⟩
  case ram i =>
    refine fun hb => ⟨(kept.holdsByte addr).trans hb, ?_⟩
    unfold State.cpuRead
    rw [kept.busTarget]
    simp only [State.cpuWrite, he]
    cases ha : s.busTarget addr
    case ram j => exact read_write_other _ _ fun hij => hne (by rw [he, ha, hij])
    all_goals rfl
  case prgRam i =>
    refine fun hb => ⟨(kept.holdsByte addr).trans hb, ?_⟩
    unfold State.cpuRead
    rw [kept.busTarget]
    simp only [State.cpuWrite, he]
    cases ha : s.busTarget addr
    case prgRam j => exact read_write_other _ _ fun hij => hne (by rw [he, ha, hij])
    all_goals rfl

/-! ## The devices under the accesses -/

/-- The memories of the PPU's side are the same. -/
structure PpuMemoryKept (s t : State) : Prop where
  vram : t.ppu.vram = s.ppu.vram
  palette : t.ppu.palette = s.ppu.palette
  oam : t.ppu.oam = s.ppu.oam
  chr : t.cart.chr = s.cart.chr

theorem PpuMemoryKept.trans {s t u : State} (h : PpuMemoryKept s t) (h' : PpuMemoryKept t u) : PpuMemoryKept s u where
  vram := h'.vram.trans h.vram
  palette := h'.palette.trans h.palette
  oam := h'.oam.trans h.oam
  chr := h'.chr.trans h.chr

theorem ReadFrame.ppuMemoryKept {s t : State} (h : ReadFrame s t) : PpuMemoryKept s t where
  vram := h.ppu_vram
  palette := h.ppu_palette
  oam := h.ppu_oam
  chr := by rw [h.cart]

/-- Only a PPU register and OAM DMA lead a bus write to those memories. -/
theorem cpuWrite_ppuMemoryKept {e : Addr} (hppu : ¬(0x2000 ≤ e.toNat ∧ e.toNat ≤ 0x3FFF)) (hdma : e.toNat ≠ 0x4014)
    (s : State) (v : Byte) : PpuMemoryKept s (s.cpuWrite e v) := by
  unfold State.cpuWrite
  cases ht : s.busTarget e
  case ppuReg r => exact absurd (range_of_busTarget_ppuReg ht) hppu
  case oamDma => exact absurd (eq_of_busTarget_oamDma ht) hdma
  all_goals exact ⟨rfl, rfl, rfl, rfl⟩

/-- The PPU, the controller, the DMA mark and CHR are the same. -/
structure DevicesKept (s t : State) : Prop where
  ppu : t.ppu = s.ppu
  pad : t.pad = s.pad
  dmaThisStep : t.dmaThisStep = s.dmaThisStep
  chr : t.cart.chr = s.cart.chr

theorem DevicesKept.refl (s : State) : DevicesKept s s := ⟨rfl, rfl, rfl, rfl⟩

theorem DevicesKept.trans {s t u : State} (h : DevicesKept s t) (h' : DevicesKept t u) : DevicesKept s u where
  ppu := h'.ppu.trans h.ppu
  pad := h'.pad.trans h.pad
  dmaThisStep := h'.dmaThisStep.trans h.dmaThisStep
  chr := h'.chr.trans h.chr

/-- The illegal-write record is the same (R31, R72). -/
def RecordKept (s t : State) : Prop := t.illegalWrite = s.illegalWrite ∧ t.illegalWrites = s.illegalWrites

theorem RecordKept.trans {s t u : State} (h : RecordKept s t) (h' : RecordKept t u) : RecordKept s u :=
  ⟨h'.1.trans h.1, h'.2.trans h.2⟩

theorem ReadFrame.recordKept {s t : State} (h : ReadFrame s t) : RecordKept s t := ⟨h.illegalWrite, h.illegalWrites⟩

/-- A write to memory reaches no device, and the illegal-write record only from PRG ROM (R72). -/
theorem cpuWrite_of_holdsByte {s : State} {e : Addr} (v : Byte) (h : s.holdsByte e = true) :
    DevicesKept s (s.cpuWrite e v) ∧ (e.toNat < 0x8000 → RecordKept s (s.cpuWrite e v)) := by
  unfold State.holdsByte at h
  unfold State.cpuWrite
  cases ht : s.busTarget e
  case ram | prgRam => exact ⟨⟨rfl, rfl, rfl, rfl⟩, fun _ => ⟨rfl, rfl⟩⟩
  case prgRom i =>
    exact ⟨⟨rfl, rfl, rfl, rfl⟩, fun hlt => absurd (range_of_busTarget_prgRom ht) (Nat.not_le.mpr hlt)⟩
  all_goals simp [ht] at h

/-- What no bus access moves: the raster counters, and a refusal mark already held (R32). -/
structure RasterKept (s t : State) : Prop where
  dot : t.ppu.dot = s.ppu.dot
  scanline : t.ppu.scanline = s.ppu.scanline
  held : s.refused ≠ none → t.refused = s.refused

theorem RasterKept.trans {s t u : State} (h : RasterKept s t) (h' : RasterKept t u) : RasterKept s u where
  dot := h'.dot.trans h.dot
  scanline := h'.scanline.trans h.scanline
  held hs := (h'.held (by rw [h.held hs]; exact hs)).trans (h.held hs)

theorem WriteFrame.rasterKept {s t : State} (h : WriteFrame s t) : RasterKept s t where
  dot := h.ppu_dot
  scanline := h.ppu_scanline
  held := h.2.2

section
variable {s t : State} (h : RegFrame s t)
include h

theorem RegFrame.memoryKept : MemoryKept s t := by
  rw [RegFrame] at h
  rw [h]
  exact ⟨rfl, rfl, rfl, rfl, rfl⟩

theorem RegFrame.ppuMemoryKept : PpuMemoryKept s t := by
  rw [RegFrame] at h
  rw [h]
  exact ⟨rfl, rfl, rfl, rfl⟩

theorem RegFrame.devicesKept : DevicesKept s t := by
  rw [RegFrame] at h
  rw [h]
  exact ⟨rfl, rfl, rfl, rfl⟩

theorem RegFrame.recordKept : RecordKept s t := by
  rw [RegFrame] at h
  rw [h]
  exact ⟨rfl, rfl⟩

theorem RegFrame.rasterKept : RasterKept s t := by
  rw [RegFrame] at h
  rw [h]
  exact ⟨rfl, rfl, fun _ => rfl⟩

end

/-! ## The frames of an instruction -/

section
variable {i : Instr} {s : State}

theorem effect_byteKept {addr : Addr} (hne : ∀ e ∈ storedAddrs i s, s.busTarget e ≠ s.busTarget addr) :
    ByteKept addr s (effect i.operation i.operand s) :=
  effect_rel_of_accesses (R := ByteKept addr) ByteKept.trans (fun h => h.memoryKept.byteKept addr)
    (fun t _ a _ => (afterRead_frame t a).memoryKept.byteKept addr)
    (fun t hk e hmem v => cpuWrite_byteKept v (by rw [hk.busTarget, hk.busTarget]; exact hne e hmem))

theorem effect_ppuMemoryKept
    (hmem : ∀ e ∈ storedAddrs i s, ¬(0x2000 ≤ e.toNat ∧ e.toNat ≤ 0x3FFF) ∧ e.toNat ≠ 0x4014) :
    PpuMemoryKept s (effect i.operation i.operand s) :=
  effect_rel_of_accesses (R := PpuMemoryKept) PpuMemoryKept.trans RegFrame.ppuMemoryKept
    (fun t _ a _ => (afterRead_frame t a).ppuMemoryKept)
    (fun t _ e he v => cpuWrite_ppuMemoryKept (hmem e he).1 (hmem e he).2 t v)

theorem effect_devicesKept (hmem : ∀ e ∈ readAddrs i s ++ storedAddrs i s, s.holdsByte e = true) :
    DevicesKept s (effect i.operation i.operand s) := by
  refine effect_rel_of_accesses (R := DevicesKept) DevicesKept.trans RegFrame.devicesKept (fun t hk a ha => ?read)
    (fun t hk e he v => ?write)
  case read =>
    rw [afterRead_of_holdsByte ((hk.holdsByte a).trans (hmem a (List.mem_append_left _ ha)))]
    exact .refl t
  case write => exact (cpuWrite_of_holdsByte v ((hk.holdsByte e).trans (hmem e (List.mem_append_right _ he)))).1

theorem effect_recordKept (hmem : ∀ e ∈ storedAddrs i s, s.holdsByte e = true ∧ e.toNat < 0x8000) :
    RecordKept s (effect i.operation i.operand s) :=
  effect_rel_of_accesses (R := RecordKept) RecordKept.trans RegFrame.recordKept
    (fun t _ a _ => (afterRead_frame t a).recordKept)
    (fun _ hk e he v => (cpuWrite_of_holdsByte v ((hk.holdsByte e).trans (hmem e he).1)).2 (hmem e he).2)

end

theorem effect_rasterKept (op : Operation) (o : Operand) (s : State) : RasterKept s (effect op o s) :=
  effect_rel (R := RasterKept) RasterKept.trans RegFrame.rasterKept
    (fun t a => (afterRead_frame t a).toWrite.rasterKept) (fun t a v => (cpuWrite_frame t a v).rasterKept) op o s

/-- Settles O57: a store is to the byte of its own address, or reaches the PPU's memories from the PPU's addresses. -/
theorem instructionsLeaveOtherMemory : Obligations.InstructionsLeaveOtherMemory := by
  intro i s t h
  obtain ⟨-, rfl, -⟩ := exec_next h
  refine ⟨fun addr hb hne => (effect_byteKept hne hb).2, fun hmem => ?_⟩
  obtain ⟨hvram, hpalette, hoam, hchr⟩ := effect_ppuMemoryKept hmem
  exact ⟨hvram, hpalette, hoam, hchr⟩

/-- Settles O58: accesses at memory reach no device, and no access moves the rest; an instruction that has a next state
began with no refusal held. -/
theorem memoryAccessesLeaveDevices : Obligations.MemoryAccessesLeaveDevices := by
  intro i s t h
  obtain ⟨-, rfl, hrefused⟩ := exec_next h
  obtain ⟨hdot, hscanline, hheld⟩ := effect_rasterKept i.operation i.operand s
  have host := effect_hostPartKept i.operation i.operand s
  refine ⟨fun hmem => ?devices, hdot, hscanline, host.buttons, host.header, host.prg, host.params, host.inputs,
    ?refused⟩
  case devices =>
    obtain ⟨hppu, hpad, hdma, hchr⟩ := effect_devicesKept hmem
    exact ⟨hppu, hpad, hdma, hchr, fun hlow =>
      effect_recordKept fun e he => ⟨hmem e (List.mem_append_right _ he), hlow e he⟩⟩
  case refused =>
    by_cases hs : s.refused = none
    · rw [hrefused, hs]
    · exact hheld hs

end Sys2Proof.Machine
end

section
/-!
PROOF. The encoding (spec/30_encoding.md R120 to R127): the columns of the opcode table in order (its opcode bytes, the
operand each mode takes from the operand bytes, the offsets in range), what `decode` answers (`decode_append`,
`decode_eq_ok`), and from them the round trip both ways and the refusal of the 25 unsupported bytes.
-/

namespace Sys2Proof.Laws.Encoding

/-- Every instruction is its table entry (R123): one lemma per constructor, in the order of the constructors. -/
theorem statement (i : Instr) : Statement i :=
  i.rec (motive := Statement)
    oraIndX sloIndX nopZp04 oraZp aslZp sloZp oraImm nopAbs0C oraAbs aslAbs sloAbs bpl oraIndY sloIndY nopZpX14 oraZpX
    aslZpX sloZpX oraAbsY sloAbsY nopAbsX1C oraAbsX aslAbsX sloAbsX jsr andIndX rlaIndX bitZp andZp rolZp rlaZp andImm
    bitAbs andAbs rolAbs rlaAbs bmi andIndY rlaIndY nopZpX34 andZpX rolZpX rlaZpX andAbsY rlaAbsY nopAbsX3C andAbsX
    rolAbsX rlaAbsX eorIndX sreIndX nopZp44 eorZp lsrZp sreZp eorImm jmpAbs eorAbs lsrAbs sreAbs bvc eorIndY sreIndY
    nopZpX54 eorZpX lsrZpX sreZpX eorAbsY sreAbsY nopAbsX5C eorAbsX lsrAbsX sreAbsX adcIndX rraIndX nopZp64 adcZp
    rorZp rraZp adcImm jmpInd adcAbs rorAbs rraAbs bvs adcIndY rraIndY nopZpX74 adcZpX rorZpX rraZpX adcAbsY rraAbsY
    nopAbsX7C adcAbsX rorAbsX rraAbsX nopImm80 staIndX nopImm82 saxIndX styZp staZp stxZp saxZp nopImm89 styAbs staAbs
    stxAbs saxAbs bcc staIndY styZpX staZpX stxZpY saxZpY staAbsY staAbsX ldyImm ldaIndX ldxImm laxIndX ldyZp ldaZp
    ldxZp laxZp ldaImm ldyAbs ldaAbs ldxAbs laxAbs bcs ldaIndY laxIndY ldyZpX ldaZpX ldxZpY laxZpY ldaAbsY ldyAbsX
    ldaAbsX ldxAbsY laxAbsY cpyImm cmpIndX nopImmC2 dcpIndX cpyZp cmpZp decZp dcpZp cmpImm cpyAbs cmpAbs decAbs dcpAbs
    bne cmpIndY dcpIndY nopZpXD4 cmpZpX decZpX dcpZpX cmpAbsY dcpAbsY nopAbsXDC cmpAbsX decAbsX dcpAbsX cpxImm sbcIndX
    nopImmE2 isbIndX cpxZp sbcZp incZp isbZp sbcImm sbcImmEB cpxAbs sbcAbs incAbs isbAbs beq sbcIndY isbIndY nopZpXF4
    sbcZpX incZpX isbZpX sbcAbsY isbAbsY nopAbsXFC sbcAbsX incAbsX isbAbsX brk jam02 php aslAcc anc0B jam12 clc nop1A
    jam22 plp rolAcc anc2B jam32 sec nop3A rti jam42 pha lsrAcc alr4B jam52 cli nop5A rts jam62 pla rorAcc arr6B jam72
    sei nop7A dey txa ane8B jam92 sha93 tya txs tas9B shy9C shx9E sha9F tay tax lxaAB jamB2 clv tsx lasBB iny dex
    sbxCB jamD2 cld nopDA inx nop jamF2 sed nopFA
end Sys2Proof.Laws.Encoding

open Sys2Proof.Machine Sys2Proof.Rules

namespace Sys2Proof

/-! ## The columns of the table -/

/-- The column of opcode bytes: the 256 bytes in order (R123). -/
theorem opcodeMap_opcodes (lo : Byte) (w : Addr) :
    (opcodeMap lo w).map (List.map Instr.opcode) =
      (List.range 16).map fun row => (List.range 16).map fun col => BitVec.ofNat 8 (row * 16 + col) := rfl

/-- The entry of an opcode byte has that byte (R121, R123). -/
theorem decodeOp_opcode (op lo hi : Byte) : (decodeOp op lo hi).opcode = op := by
  have hrow : op.toNat / 16 < 16 := by omega
  have hcol : op.toNat % 16 < 16 := by omega
  have hop : op.toNat / 16 * 16 + op.toNat % 16 = op.toNat := by omega
  rw [decodeOp_map Instr.opcode, opcodeMap_opcodes]
  simp [List.getD_eq_getElem?_getD, hrow, hcol, hop]

/-- The operand a mode makes of the operand bytes (R122). -/
def Mode.operandOf (m : Mode) (lo hi : Byte) : Operand :=
  match m with
  | .implied => .implied
  | .accumulator => .accumulator
  | .immediate => .immediate lo
  | .zeroPage => .zeroPage lo
  | .zeroPageX => .zeroPageX lo
  | .zeroPageY => .zeroPageY lo
  | .absolute => .absolute (joinBytes hi lo)
  | .absoluteX => .absoluteX (joinBytes hi lo)
  | .absoluteY => .absoluteY (joinBytes hi lo)
  | .indirect => .indirect (joinBytes hi lo)
  | .indexedIndirectX => .indexedIndirectX lo
  | .indirectIndexedY => .indirectIndexedY lo
  | .relative => .relative (signedOffset lo)

/-- The column of operands: each is what the entry's mode makes of the operand bytes. -/
theorem decodeOp_operand (op lo hi : Byte) : (decodeOp op lo hi).operand = (modeOf op).operandOf lo hi := by
  rw [modeOf, decodeOp_map Instr.operand, decodeOp_map fun i => i.mode.operandOf lo hi]
  rfl

theorem operandBytes_le_two (m : Mode) : m.operandBytes ≤ 2 := by cases m <;> decide

/-- The operand bytes of a mode's operand are the bytes it was made of, as many as the mode has. -/
theorem operandOf_bytes (m : Mode) (lo hi : Byte) :
    (m.operandOf lo hi).bytes = [lo, hi].take m.operandBytes := by
  cases m
  case absolute | absoluteX | absoluteY | indirect =>
    simp [Mode.operandOf, Operand.bytes, Mode.operandBytes]
  case relative => simp [Mode.operandOf, Operand.bytes, Mode.operandBytes, offsetByte_signedOffset]
  all_goals rfl

/-- The one operand that can be wrong: an offset past the signed byte. -/
def Operand.fits : Operand → Bool
  | .relative off => offsetFits off
  | _ => true

theorem wf_eq_operand_fits (i : Instr) : i.wf = i.operand.fits := by cases i <;> rfl

theorem decodeOp_wf (op lo hi : Byte) : (decodeOp op lo hi).wf = true := by
  rw [wf_eq_operand_fits, decodeOp_operand]
  cases modeOf op
  case relative => exact offsetFits_signedOffset lo
  all_goals rfl

/-- The encoding of an entry is its opcode byte and the operand bytes of its mode (R120). -/
theorem encode_decodeOp (op lo hi : Byte) :
    encode (decodeOp op lo hi) = op :: [lo, hi].take (modeOf op).operandBytes := by
  rw [encode, decodeOp_opcode, decodeOp_operand, operandOf_bytes]

/-! ## What the decoder answers -/

/-- The length of an instruction: the opcode byte and the operand bytes of its mode (R120). -/
theorem instrLength_eq (op : Byte) : instrLength op = 1 + (modeOf op).operandBytes := rfl

theorem operandBytes_of_instrLength {op : Byte} {n : Nat} (h : instrLength op = n + 1) :
    (modeOf op).operandBytes = n := by
  rw [instrLength_eq] at h
  omega

/-- Given the operand bytes of its entry's mode, an opcode byte decodes, and the bytes after them are left. -/
theorem decode_append {op : Byte} {operands : List Byte} (h : operands.length = (modeOf op).operandBytes)
    (rest : List Byte) :
    decode (op :: (operands ++ rest)) = .ok (decodeOp op (operands.getD 0 0) (operands.getD 1 0), rest) := by
  have htwo := operandBytes_le_two (modeOf op)
  have hlen : instrLength op = 1 + operands.length := by rw [h, instrLength_eq]
  match operands with
  | [] | [_] | [_, _] => simp [decode, hlen]
  | _ :: _ :: _ :: _ => simp only [List.length] at h; omega

/-- What decodes is a table entry, and its bytes are the opcode byte, the operand bytes of its mode and the rest. -/
theorem decode_eq_ok {bytes : List Byte} {i : Instr} {rest : List Byte} (h : decode bytes = .ok (i, rest)) :
    ∃ op lo hi, i = decodeOp op lo hi ∧ bytes = op :: ([lo, hi].take (modeOf op).operandBytes ++ rest) := by
  cases bytes with
  | nil => cases h
  | cons op tail =>
    simp only [decode] at h
    split at h
    next h1 => cases h; exact ⟨op, 0, 0, rfl, by rw [operandBytes_of_instrLength h1]; rfl⟩
    next lo _ h2 => cases h; exact ⟨op, lo, 0, rfl, by rw [operandBytes_of_instrLength h2]; rfl⟩
    next lo hi _ h3 => cases h; exact ⟨op, lo, hi, rfl, by rw [operandBytes_of_instrLength h3]; rfl⟩
    next => cases h

/-- Settles O4: the table's entry for the opcode byte, given the operand bytes, is the instruction. -/
theorem decodeOfEncodeIsTheInstruction : Obligations.DecodeOfEncodeIsTheInstruction := by
  intro i rest h
  obtain ⟨hlen, hentry⟩ := Laws.Encoding.statement i h
  exact (decode_append (operandBytes_of_instrLength hlen.symm).symm rest).trans
    (congrArg (fun j => Except.ok (j, rest)) hentry)

/-- Settles O5: the answer is a table entry, whose encoding is its opcode byte and operand bytes; an opcode byte with
two bytes after it has all the operand bytes its entry can have. -/
theorem decodedBytesAreTheEncoding : Obligations.DecodedBytesAreTheEncoding := by
  refine ⟨fun bytes i rest h => ?encoding, fun op lo hi rest => ?total⟩
  case encoding =>
    obtain ⟨op, lo, hi, rfl, rfl⟩ := decode_eq_ok h
    exact ⟨decodeOp_wf op lo hi, by rw [encode_decodeOp]; rfl⟩
  case total =>
    have decoded := decode_append (op := op) (List.length_take_of_le (l := [lo, hi]) (operandBytes_le_two _))
      ([lo, hi].drop (modeOf op).operandBytes ++ rest)
    rw [← List.append_assoc, List.take_append_drop] at decoded
    exact ⟨_, _, decoded⟩

/-! ## The unsupported bytes -/

/-- The Unsupported entries of the table are those of the 25 bytes of R125. -/
theorem decodeOp_unsupported_iff (op lo hi : Byte) :
    (decodeOp op lo hi).operation = .unsupported ↔ op ∈ unsupportedBytes := by
  rw [decodeOp_operation]
  revert op
  decide

/-- An unsupported byte fetches no operand (R120, R127). -/
theorem instrLength_of_unsupported : ∀ op ∈ unsupportedBytes, instrLength op = 1 := by decide

/-- Settles O7: the columns of the table depend on the opcode byte alone. -/
theorem opcodeByteFixesModeAndLength : Obligations.OpcodeByteFixesModeAndLength := by
  refine ⟨fun op lo hi => ?entry, fun i j h => ?columns, fun op lo hi => ?operand, rfl⟩
  case entry =>
    have hlen := instrLength_eq op
    have htwo := operandBytes_le_two (modeOf op)
    exact ⟨decodeOp_opcode op lo hi, decodeOp_mode op lo hi, hlen, by omega, by omega,
      fun hu => instrLength_of_unsupported op ((decodeOp_unsupported_iff op lo hi).mp hu)⟩
  case columns =>
    obtain ⟨hi, hi'⟩ := columns_of_opcode i
    obtain ⟨hj, hj'⟩ := columns_of_opcode j
    rw [hi, hi', hj, hj', h]
    exact ⟨rfl, rfl⟩
  case operand =>
    rw [decodeOp_operand]
    cases modeOf op <;> rfl

/-- Settles O6: each word is the encoding of its instruction, with the bytes that follow. -/
theorem specWordsDecode : Obligations.SpecWordsDecode := by
  have branch : encode (.bpl (-128)) = [0x10, 0x80] := by decide
  exact ⟨decodeOfEncodeIsTheInstruction (.ldaImm 0x7F) [] rfl, decodeOfEncodeIsTheInstruction (.ldaAbs 0x1234) [] rfl,
    decodeOfEncodeIsTheInstruction (.jmpInd 0x02FF) [] rfl,
    branch ▸ decodeOfEncodeIsTheInstruction (.bpl (-128)) [] rfl,
    decodeOfEncodeIsTheInstruction .aslAcc [0xEA] rfl, decodeOfEncodeIsTheInstruction (.sbcImmEB 0x03) [] rfl,
    decodeOfEncodeIsTheInstruction (.nopAbsXDC 0x12F0) [] rfl, decodeOfEncodeIsTheInstruction .jam02 [] rfl⟩

/-- An instruction of an unsupported byte refuses under that byte, whatever the state (R285, D2). -/
theorem exec_of_unsupported {i : Instr} (s : State) (h : i.opcode ∈ unsupportedBytes) :
    exec i s = .refused (.unsupportedOpcode i.opcode) := by
  obtain ⟨hop, -⟩ := columns_of_opcode i
  rw [exec_eq, hop, (decodeOp_unsupported_iff _ _ _).mpr h]
  rfl

/-- So does the step that fetches one: it reads the opcode byte and no more, which cannot itself refuse (R300). -/
theorem executeSingle_of_unsupported {s : State} (hs : s.Ready) (h : s.fetchByte ∈ unsupportedBytes) :
    executeSingle s = .refused (.unsupportedOpcode s.fetchByte) := by
  have hopcode : s.fetchInstr.opcode = s.fetchByte := decodeOp_opcode _ _ _
  have hrefused : (State.afterFetch (instrLength s.fetchByte) s).refused = none :=
    ((afterFetch_frame _ s).refused hs.2).trans hs.1
  simp only [executeSingle, hrefused]
  rw [exec_of_unsupported _ (hopcode ▸ h), hopcode]

theorem clock_of_unsupported (inp : HostInput) {s : State} (hs : s.Ready) (h : s.fetchByte ∈ unsupportedBytes) :
    clock inp s = .refused (.unsupportedOpcode s.fetchByte) := by
  have hexec : executeSingle (s.setDmaThisStep false) = .refused (.unsupportedOpcode s.fetchByte) :=
    executeSingle_of_unsupported hs h
  simp only [clock, hs.1, hexec]

/-- Settles O37: the column of operations names the 25 bytes, and their one meaning is the refusal. -/
theorem unsupportedBytesRefuse : Obligations.UnsupportedBytesRefuse := by
  refine ⟨decodeOp_unsupported_iff, fun i s h => exec_of_unsupported s h, fun inp s hs h => ?_⟩
  have hclock := clock_of_unsupported inp hs h
  exact ⟨hclock, by rw [hostClock, hclock]⟩

end Sys2Proof
end

section
/-!
PROOF. The cycle counter (spec/10_state.md R26, spec/40_addressing_modes.md R155, spec/70_reset_and_hazards.md R391,
R392). Nothing an instruction does reads it: every operation of the model, started with `k` more cycles, has the same
value and leaves the same state with `k` more cycles. And no bus access and no register result writes it, so that an
instruction adds its own count and nothing else.
-/

namespace Sys2Proof.Machine

/-! ## Bus accesses with more cycles on the counter -/

section
variable (k : Nat) (s : State)

/-- Two counts of cycles may be added in either order: `k` more before an instruction's own are `k` more after them. -/
theorem addCycles_of_eq {u t : State} (h : u = t.addCycles k) (n : Nat) :
    u.addCycles n = (t.addCycles n).addCycles k := by
  rw [h]
  simp only [State.addCycles, Nat.add_right_comm t.cyc k n]

theorem cpuRead_addCycles (addr : Addr) : (s.addCycles k).cpuRead addr = s.cpuRead addr := rfl

theorem afterPpuRead_addCycles (a : VAddr) : (s.addCycles k).afterPpuRead a = (s.afterPpuRead a).addCycles k := by
  unfold State.afterPpuRead
  rw [show (s.addCycles k).mirroring = s.mirroring from rfl]
  cases ppuTarget s.mirroring a <;> rfl

theorem afterPpuRegRead_addCycles (r : Nat) :
    (s.addCycles k).afterPpuRegRead r = (s.afterPpuRegRead r).addCycles k := by
  unfold State.afterPpuRegRead
  split
  case h_2 =>
    unfold State.afterDataRead
    dsimp only
    rw [show (s.addCycles k).ppu = s.ppu from rfl, afterPpuRead_addCycles]
    rfl
  all_goals rfl

theorem afterRead_addCycles (addr : Addr) : (s.addCycles k).afterRead addr = (s.afterRead addr).addCycles k := by
  unfold State.afterRead
  rw [show (s.addCycles k).busTarget addr = s.busTarget addr from rfl]
  cases s.busTarget addr
  case ppuReg r => exact afterPpuRegRead_addCycles k s r
  all_goals rfl

theorem read16_addCycles (addr : Addr) : (s.addCycles k).read16 addr = s.read16 addr := by
  simp only [State.read16, afterRead_addCycles, cpuRead_addCycles]

theorem ppuWrite_addCycles (a : VAddr) (v : Byte) :
    (s.addCycles k).ppuWrite a v = (s.ppuWrite a v).addCycles k := by
  unfold State.ppuWrite
  rw [show (s.addCycles k).mirroring = s.mirroring from rfl, addCycles_cart]
  cases ppuTarget s.mirroring a
  case chr i => dsimp only; split <;> rfl
  all_goals rfl

theorem ppuRegWrite_addCycles (r : Nat) (v : Byte) :
    (s.addCycles k).ppuRegWrite r v = (s.ppuRegWrite r v).addCycles k := by
  unfold State.ppuRegWrite
  split
  case h_7 =>
    dsimp only
    rw [addCycles_ppu, ppuWrite_addCycles]
    rfl
  all_goals rfl

theorem dmaCopies_addCycles (base : Addr) (n : Nat) :
    (s.addCycles k).dmaCopies base n = (s.dmaCopies base n).addCycles k := by
  induction n with
  | zero => rfl
  | succ n ih =>
    rw [State.dmaCopies, ih, State.dmaCopies]
    unfold State.dmaCopy
    dsimp only
    rw [cpuRead_addCycles, afterRead_addCycles]
    rfl

theorem oamDma_addCycles (page : Byte) : (s.addCycles k).oamDma page = (s.oamDma page).addCycles k := by
  unfold State.oamDma
  rw [dmaCopies_addCycles]
  generalize s.dmaCopies (joinBytes page 0x00) 256 = t
  rfl

theorem cpuWrite_addCycles (addr : Addr) (v : Byte) :
    (s.addCycles k).cpuWrite addr v = (s.cpuWrite addr v).addCycles k := by
  unfold State.cpuWrite
  rw [show (s.addCycles k).busTarget addr = s.busTarget addr from rfl]
  cases s.busTarget addr
  case ppuReg r => exact ppuRegWrite_addCycles k s r v
  case oamDma => exact oamDma_addCycles k s v
  all_goals rfl

theorem push_addCycles (v : Byte) : (s.addCycles k).push v = (s.push v).addCycles k := by
  rw [push_eq, push_eq]
  rfl

theorem push16_addCycles (v : Addr) : (s.addCycles k).push16 v = (s.push16 v).addCycles k := by
  rw [State.push16, push_addCycles, push_addCycles, State.push16]

/-! ## The operand with more cycles on the counter -/

theorem writeOperand_addCycles (ea : Option Addr) (v : Byte) :
    (s.addCycles k).writeOperand ea v = (s.writeOperand ea v).addCycles k := by
  cases ea with
  | none => rfl
  | some addr => exact cpuWrite_addCycles k s addr v

theorem resolve_addCycles (o : Operand) :
    resolve o (s.addCycles k) = { resolve o s with st := (resolve o s).st.addCycles k } := by
  cases o
  case indirect | indexedIndirectX | indirectIndexedY =>
    simp only [resolve, State.readPair, State.afterReadPair, afterRead_addCycles, cpuRead_addCycles, addCycles_x,
      addCycles_y]
  all_goals rfl

theorem loadOperand_addCycles (o : Operand) :
    loadOperand o (s.addCycles k) = { loadOperand o s with st := (loadOperand o s).st.addCycles k } := by
  unfold loadOperand
  rw [resolve_addCycles]
  split
  · rfl
  · dsimp only
    split
    · rw [cpuRead_addCycles, afterRead_addCycles]
    · rfl

theorem jumpTo_addCycles (ea : Option Addr) : (s.addCycles k).jumpTo ea = (s.jumpTo ea).addCycles k := by
  cases ea <;> rfl

theorem afterNopRead_addCycles (ea : Option Addr) :
    (s.addCycles k).afterNopRead ea = (s.afterNopRead ea).addCycles k := by
  cases ea with
  | none => rfl
  | some addr =>
    simp only [State.afterNopRead, addCycles_params, afterRead_addCycles]
    split <;> rfl

/-! ## The effect of an instruction with more cycles on the counter -/

theorem readEffect_addCycles (o : Operand) (base : Nat) (cares : Bool) {f : State → Byte → State}
    (hf : ∀ t m, f (t.addCycles k) m = (f t m).addCycles k) :
    readEffect o base cares f (s.addCycles k) = (readEffect o base cares f s).addCycles k := by
  simp only [readEffect, loadOperand_addCycles]
  exact addCycles_of_eq k (hf _ _) _

theorem storeEffect_addCycles (o : Operand) (base : Nat) {v : State → Byte} (hv : ∀ t, v (t.addCycles k) = v t) :
    storeEffect o base v (s.addCycles k) = (storeEffect o base v s).addCycles k := by
  simp only [storeEffect, resolve_addCycles, hv]
  exact addCycles_of_eq k (writeOperand_addCycles k _ _ _) _

theorem modifyEffect_addCycles (o : Operand) (base : Nat) {g : State → Byte → Byte} {f : State → Byte → Byte → State}
    (hg : ∀ t v, g (t.addCycles k) v = g t v) (hf : ∀ t v r, f (t.addCycles k) v r = (f t v r).addCycles k) :
    modifyEffect o base g f (s.addCycles k) = (modifyEffect o base g f s).addCycles k := by
  simp only [modifyEffect, loadOperand_addCycles, hg, writeOperand_addCycles]
  exact addCycles_of_eq k (hf _ _ _) _

theorem branchEffect_addCycles (off : Int) (taken : Bool) :
    branchEffect off taken (s.addCycles k) = (branchEffect off taken s).addCycles k := by
  cases taken <;> exact addCycles_of_eq k (by rfl) _

theorem effect_addCycles (op : Operation) (o : Operand) :
    effect op o (s.addCycles k) = (effect op o s).addCycles k := by
  cases op
  case lda | ldx | ldy | adc | sbc | and | eor | ora | cmp | cpx | cpy | bit | lax =>
    exact readEffect_addCycles k s o _ _ fun _ _ => rfl
  case sta | stx | sty | sax => exact storeEffect_addCycles k s o _ fun _ => rfl
  case asl | lsr | rol | ror | inc | dec | dcp | isb | slo | rla | sre | rra =>
    exact modifyEffect_addCycles k s o _ (fun _ _ => rfl) fun _ _ _ => rfl
  case bcc | bcs | beq | bmi | bne | bpl | bvc | bvs => exact branchEffect_addCycles k s _ _
  case jmp =>
    simp only [effect, resolve_addCycles]
    exact addCycles_of_eq k (jumpTo_addCycles k _ _) _
  case jsr =>
    simp only [effect, resolve_addCycles, push16_addCycles]
    exact addCycles_of_eq k (jumpTo_addCycles k _ _) _
  case nop =>
    simp only [effect, resolve_addCycles, afterNopRead_addCycles, ← apply_ite (State.addCycles · k)]
    exact addCycles_of_eq k (by rfl) _
  case pha | php => exact addCycles_of_eq k (push_addCycles k s _) _
  case pla => exact addCycles_of_eq k (by rw [pla_eq, pla_eq, pull_eq, pull_eq]; rfl) _
  case plp => exact addCycles_of_eq k (by rw [plp_eq, plp_eq, pull_eq, pull_eq]; rfl) _
  case rts => exact addCycles_of_eq k (by rw [rts_eq, rts_eq, pull16_eq, pull16_eq]; rfl) _
  case rti => exact addCycles_of_eq k (by rw [rti_eq, rti_eq]; rfl) _
  case brk => exact addCycles_of_eq k (by rw [brk_eq, brk_eq, read16_addCycles]; rfl) _
  case unsupported => rfl
  all_goals exact addCycles_of_eq k (by rfl) _

end

/-- Settles O59: the instruction's effect, and the refusal mark it leaves, are those of the earlier start. -/
theorem noInstructionReadsTheCycleCounter : Obligations.NoInstructionReadsTheCycleCounter := by
  intro i s k
  show exec i (s.addCycles k) = _
  by_cases hu : i.operation = .unsupported
  · rw [exec_eq, exec_eq, hu]
    rfl
  · rw [exec_of_effect i _ hu, exec_of_effect i _ hu, effect_addCycles]
    cases hr : (effect i.operation i.operand s).refused with
    | none => rw [finish_addCycles hr, finish_of_none hr]
    | some r => rw [finish_of_some hr, finish_of_some ((addCycles_refused _ k).trans hr)]

/-! ## The cycles of an instruction -/

/-- The branches (R240): their cycles depend on the flag as well. -/
def isBranch : Operation → Bool
  | .bcc | .bcs | .beq | .bmi | .bne | .bpl | .bvc | .bvs => true
  | _ => false

/-- A branch's operand is its offset. -/
theorem operand_of_isBranch {i : Instr} (h : isBranch i.operation = true) : ∃ off, i.operand = .relative off := by
  have table : (isBranch i.operation && i.mode != .relative) = false := by cases i <;> rfl
  have hm : i.operand.mode = .relative := by simpa [h, Instr.mode] using table
  cases ho : i.operand
  case relative off => exact ⟨off, rfl⟩
  all_goals rw [ho] at hm; cases hm

/-- An operation that does not care (R155) pays no penalty. -/
theorem penalty_of_not_cares {op : Operation} (h : op.cares = false) (mayCross crossed : Bool) :
    penalty (mayCross && op.cares) crossed = 0 := by
  simp [penalty, h]

/-- The penalty, as R155 writes it. -/
theorem penalty_eq_ite (m : Mode) (op : Operation) (crossed : Bool) :
    penalty (m.mayCross && op.cares) crossed =
      if crossed = true ∧ op.cares = true ∧ (m = .absoluteX ∨ m = .absoluteY ∨ m = .indirectIndexedY) then 1
      else 0 := by
  have hm : m.mayCross = true ↔ m = .absoluteX ∨ m = .absoluteY ∨ m = .indirectIndexedY := by
    cases m <;> decide
  simp only [penalty, Bool.and_eq_true, hm]
  refine if_congr ?_ rfl rfl
  tauto

section
variable (o : Operand) (s : State) (base : Nat)

theorem writeOperand_cyc (ea : Option Addr) (v : Byte) : (s.writeOperand ea v).cyc = s.cyc := by
  cases ea with
  | none => rfl
  | some addr => exact (cpuWrite_frame s addr v).cyc

theorem jumpTo_cyc (ea : Option Addr) : (s.jumpTo ea).cyc = s.cyc := by
  cases ea <;> rfl

theorem readEffect_cyc (cares : Bool) {f : State → Byte → State} (hf : ∀ t m, (f t m).cyc = t.cyc) :
    (readEffect o base cares f s).cyc = s.cyc + (base + penalty cares (resolve o s).crossed) := by
  simp only [readEffect, addCycles_cyc, hf, (loadOperand_frame o s).cyc, loadOperand_crossed]

theorem storeEffect_cyc (v : State → Byte) : (storeEffect o base v s).cyc = s.cyc + base := by
  simp only [storeEffect, addCycles_cyc, writeOperand_cyc, (resolve_frame o s).cyc]

theorem modifyEffect_cyc {g : State → Byte → Byte} {f : State → Byte → Byte → State}
    (hf : ∀ t v r, (f t v r).cyc = t.cyc) : (modifyEffect o base g f s).cyc = s.cyc + base := by
  simp only [modifyEffect, addCycles_cyc, hf, writeOperand_cyc, (loadOperand_frame o s).cyc]

/-- The cycles of every operation but a branch: its base cycles and its penalty. -/
theorem effect_cyc {op : Operation} (h : isBranch op = false) :
    (effect op o s).cyc =
      s.cyc + (op.baseCycles o.mode + penalty (o.mode.mayCross && op.cares) (resolve o s).crossed) := by
  have hr := (resolve_frame o s).cyc
  cases op
  case bcc | bcs | beq | bmi | bne | bpl | bvc | bvs => cases h
  case lda | ldx | ldy | adc | sbc | and | eor | ora | cmp | cpx | cpy | bit | lax =>
    exact readEffect_cyc o s _ _ fun _ _ => rfl
  case nop =>
    simp only [effect, addCycles_cyc]
    split
    · rw [(afterNopRead_frame _ _).cyc, hr]
    · rw [hr]
  all_goals rw [penalty_of_not_cares rfl, Nat.add_zero]
  case sta | stx | sty | sax => exact storeEffect_cyc o s _ _
  case asl | lsr | rol | ror | inc | dec | dcp | isb | slo | rla | sre | rra =>
    exact modifyEffect_cyc o s _ fun _ _ _ => rfl
  case jmp => rw [effect, addCycles_cyc, jumpTo_cyc, hr]
  case jsr => rw [effect, addCycles_cyc, jumpTo_cyc, push16_eq, hr]
  case pha => rw [effect, pha_eq]; rfl
  case php => rw [effect, php_eq]; rfl
  case pla => rw [effect, pla_eq]; rfl
  case plp => rw [effect, plp_eq]; rfl
  case rts => rw [effect, rts_eq]; rfl
  case rti => rw [effect, rti_eq]; rfl
  case brk => rw [effect, brk_eq]; rfl
  all_goals rfl

end

/-- Settles O18: the cycles of the instruction's effect, which is no branch's, as its operand is no offset. -/
theorem cyclesAreBasePlusPenalty : Obligations.CyclesAreBasePlusPenalty := by
  intro i s t h ho
  obtain ⟨-, rfl, -⟩ := exec_next h
  have hb : isBranch i.operation = false := by
    by_contra hb
    obtain ⟨off, hoff⟩ := operand_of_isBranch (Bool.not_eq_false _ ▸ hb)
    exact ho off hoff
  rw [effect_cyc i.operand s hb, penalty_eq_ite, Nat.add_assoc]
  rfl

end Sys2Proof.Machine
end

section
/-!
PROOF. The addressing modes and the stack (spec/40_addressing_modes.md R141 to R154). The masks in which the rules are
written act on the two bytes of an address; a mode run from the fetch is `resolve` of its operand after its operand
bytes (`runMode_of_mode`), and each mode is then one equation.
-/

open Sys2Proof.Rules

namespace Sys2Proof.Machine

/-! ## The two bytes of an address -/

theorem and_highMask (w : Addr) : w &&& 0xFF00#16 = joinBytes (hiByte w) 0x00 := by
  conv_lhs => rw [← joinBytes_hi_lo w]
  rw [show 0xFF00#16 = BitVec.allOnes 8 ++ 0x00#8 from rfl, joinBytes, BitVec.and_append, BitVec.and_allOnes,
    BitVec.and_zero]
  rfl

theorem and_lowMask (w : Addr) : w &&& 0x00FF#16 = joinBytes 0x00 (loByte w) := by
  conv_lhs => rw [← joinBytes_hi_lo w]
  rw [show 0x00FF#16 = 0x00#8 ++ BitVec.allOnes 8 from rfl, joinBytes, BitVec.and_append, BitVec.and_allOnes,
    BitVec.and_zero]
  rfl

theorem joinBytes_or (hi lo : Byte) : joinBytes hi 0x00 ||| joinBytes 0x00 lo = joinBytes hi lo := by
  show (hi ++ 0x00#8) ||| (0x00#8 ++ lo) = hi ++ lo
  rw [BitVec.or_append, BitVec.or_zero, BitVec.zero_or]

theorem zext_eq_joinBytes (b : Byte) : zext b = joinBytes 0x00 b := by
  apply BitVec.eq_of_toNat_eq
  rw [zext_toNat, joinBytes_toNat]
  simp

theorem loByte_add_one (w : Addr) : loByte (w + 1) = loByte w + 1 := BitVec.setWidth_add w 1 (by decide)

/-- The page-boundary signal is the comparison of R148. -/
theorem pageCrossed_eq_pagesDiffer (base ea : Addr) : pageCrossed base ea = pagesDiffer base ea := by
  have high : base &&& 0xFF00#16 = ea &&& 0xFF00#16 ↔ hiByte base = hiByte ea := by
    rw [and_highMask, and_highMask]
    exact ⟨fun h => by simpa using congrArg hiByte h, fun h => by rw [h]⟩
  simp [pageCrossed, pagesDiffer, bne, high]

/-- The address of an Indirect pointer's high byte, as R150 writes it. -/
theorem indirectHi_eq_masks (ptr : Addr) :
    indirectHi ptr = (ptr &&& 0xFF00#16) ||| ((ptr + 1) &&& 0x00FF#16) := by
  rw [and_highMask, and_lowMask, joinBytes_or, loByte_add_one, indirectHi]

/-- The stack address is page 1 with SP as its low byte, as R154 writes it. -/
theorem stackAddr_eq_or (sp : Byte) : stackAddr sp = 0x0100#16 ||| zext sp := by
  rw [zext_eq_joinBytes, show 0x0100#16 = joinBytes 0x01 0x00 from rfl, joinBytes_or, stackAddr]

/-! ## A mode run from the fetch, R140 -/

theorem runMode_of_mode {op : Byte} {m : Mode} (h : modeOf op = m) (s : State) :
    runMode op s =
      resolve (m.operandOf s.fetchByte s.afterFetchByte.fetchByte) (State.afterFetch m.operandBytes s) := by
  rw [runMode, decodeOp_operand, h, ← h]
  rfl

theorem afterFetchByte_x (s : State) : s.afterFetchByte.x = s.x := (afterRead_frame s s.pc).x

theorem afterFetchByte_y (s : State) : s.afterFetchByte.y = s.y := (afterRead_frame s s.pc).y

/-- After the fetch of the operand byte, the byte lies just before PC (R143). -/
theorem afterFetchByte_pc_sub_one (s : State) : s.afterFetchByte.pc - 1 = s.pc := BitVec.add_sub_cancel s.pc 1

/-- Settles O14: one equation of `resolve` for each mode; the fetch leaves X and Y. -/
theorem plainModesGiveEffectiveAddress : Obligations.PlainModesGiveEffectiveAddress := by
  intro op s s1 b s2 base
  have hx : s2.x = s.x := (afterFetchByte_x s1).trans (afterFetchByte_x s)
  have hy : s2.y = s.y := (afterFetchByte_y s1).trans (afterFetchByte_y s)
  refine ⟨fun h => ?implied, fun h => ?accumulator, fun h => ⟨?immediate, ?immediateLoad⟩, fun h => ?zeroPage,
    fun h => ?zeroPageX, fun h => ?zeroPageY, fun h => ?relative, fun h => ?absolute, fun h => ?absoluteX,
    fun h => ?absoluteY⟩
  case immediateLoad =>
    rw [decodeOp_operand, h, ← afterFetchByte_pc_sub_one s]
    rfl
  all_goals simp only [runMode_of_mode h, ← pageCrossed_eq_pagesDiffer]
  case immediate => rw [← afterFetchByte_pc_sub_one s]; rfl
  case zeroPageX => rw [← afterFetchByte_x s]; rfl
  case zeroPageY => rw [← afterFetchByte_y s]; rfl
  case absoluteX => rw [← hx]; rfl
  case absoluteY => rw [← hy]; rfl
  all_goals rfl

/-- Settles O15: one equation of `resolve` for each mode; the pointers of the zero page are read from RAM, without an
effect. -/
theorem pointerModesGiveEffectiveAddress : Obligations.PointerModesGiveEffectiveAddress := by
  intro op s s1 s2 b
  refine ⟨fun h => ?indirect, fun h => ?indexedIndirectX, fun h => ?indirectIndexedY⟩ <;>
    simp only [runMode_of_mode h, ← indirectHi_eq_masks, ← pageCrossed_eq_pagesDiffer]
  case indirect => rfl
  case indexedIndirectX =>
    rw [← afterFetchByte_x s]
    simp only [Mode.operandOf, resolve, readPair_zext, afterReadPair_zext]
    rfl
  case indirectIndexedY =>
    rw [← afterFetchByte_y s]
    simp only [Mode.operandOf, resolve, readPair_zext, afterReadPair_zext]
    rfl

/-! ## The stack, R154 -/

/-- Settles O17: a push and a pull are each one bus access, and both lie in RAM. -/
theorem stackPushAndPull : Obligations.StackPushAndPull := by
  intro s v
  refine ⟨stackAddr_eq_or, ?push, push_eq s v, ?pull, pull_eq s, afterPull_eq s, ?pullPush, ?spPush⟩
  case push => rw [State.push, (cpuWrite_frame s _ v).sp, State.setSp]
  case pull => rfl
  case pullPush => simp [push_eq, pull_eq]
  case spPush => simp [push_eq, afterPull_eq]

end Sys2Proof.Machine
end

section
/-!
PROOF. The transfers, loads and stores (spec/41_transfer_load_store.md R160 to R171). Three facts that other families
need as well come first: the encodings of an operation are read off two columns of the opcode table
(`hasEncodings_of_columns`), and an instruction that reads its operand, or stores to it, is one equation of `exec`
(`exec_of_isRead`, `exec_of_isStore`).
-/

open Sys2Proof.Rules

namespace Sys2Proof

/-! ## The encodings of an operation -/

/-- The columns of operations and modes say what the encodings of an operation are (R123): an instruction's own
columns are those of its opcode byte, and the operand bytes do not matter. -/
theorem hasEncodings_of_columns {op : Operation} {l : List (Mode × Byte)}
    (h : (∀ b : Byte, (decodeOp b 0 0).operation = op ↔ (modeOf b, b) ∈ l) ∧ ∀ e ∈ l, modeOf e.2 = e.1) :
    HasEncodings op l := by
  obtain ⟨hop, hmode⟩ := h
  refine ⟨fun i => ?instruction, fun e he lo hi => ⟨?operation, ?mode⟩⟩
  case instruction =>
    obtain ⟨hi, hm⟩ := columns_of_opcode i
    rw [hi, hm]
    exact hop i.opcode
  case operation =>
    rw [decodeOp_operation, hop, hmode e he]
    exact he
  case mode =>
    rw [decodeOp_mode]
    exact hmode e he

end Sys2Proof

namespace Sys2Proof.Machine

/-! ## An instruction that reads its operand -/

/-- The operation reads M once and is then `f` (R156). -/
def IsRead (op : Operation) (f : State → Byte → State) : Prop :=
  ∀ (o : Operand) (opcode : Byte) (s : State),
    meaning op o opcode s = readInstr o (op.baseCycles o.mode) (o.mode.mayCross && op.cares) f s

/-- Where no access can refuse, such an instruction runs and adds its cycles. -/
theorem exec_of_isRead {op : Operation} {f : State → Byte → State} (hread : IsRead op f) {i : Instr}
    (hop : i.operation = op) {s : State} (hs : s.Ready) (hrefused : ∀ t m, (f t m).refused = t.refused)
    (hcyc : ∀ t m, (f t m).cyc = t.cyc) :
    exec i s = .next { f (loadOperand i.operand s).st (loadOperand i.operand s).value with
      cyc := s.cyc + i.cycles (loadOperand i.operand s).crossed } := by
  rw [exec_eq, hop, hread, readInstr_next _ _ _ f hs hrefused, State.addCycles, hcyc,
    (loadOperand_frame i.operand s).cyc, ← hop]
  rfl

/-! ## An instruction that stores to its operand -/

/-- The operation writes `v` once to its operand (R156). -/
def IsStore (op : Operation) (v : State → Byte) : Prop :=
  ∀ (o : Operand) (opcode : Byte) (s : State), meaning op o opcode s = storeInstr o (op.baseCycles o.mode) v s

/-- An instruction that writes its result back, and not to A, has an effective address. -/
theorem exists_ea_of_writesBack {i : Instr} (hw : writesBack i.operation = true) (hA : writesA i = false)
    (s : State) : ∃ ea, (resolve i.operand s).ea = some ea :=
  Option.ne_none_iff_exists'.mp fun h => by simp [writesA_of_no_address i s hw h] at hA

/-- With no page crossing to pay for, an instruction's cycles are its base cycles (R155). -/
theorem cycles_false (i : Instr) : i.cycles false = i.operation.baseCycles i.mode := by
  simp [Instr.cycles]

/-- Where no access can refuse, such an instruction runs: one bus write at the effective address, of a value that the
mode's own reads leave as it was. -/
theorem exec_of_isStore {op : Operation} {v : State → Byte} (hstore : IsStore op v) {i : Instr}
    (hop : i.operation = op) {s : State} (hs : s.Ready) (hv : v (resolve i.operand s).st = v s) {ea : Addr}
    (hea : (resolve i.operand s).ea = some ea) :
    exec i s = .next { (resolve i.operand s).st.cpuWrite ea (v s) with cyc := s.cyc + i.cycles false } := by
  rw [exec_eq, hop, hstore, storeInstr_next _ _ v hs hea, hv, State.addCycles, (cpuWrite_frame _ ea (v s)).cyc,
    (resolve_frame i.operand s).cyc, cycles_false, ← hop]
  rfl

/-! ## The loads, the stores and the transfers -/

/-- Settles O19: after the one read of M, which leaves P, a load writes its register and sets N and Z. -/
theorem loadsSetRegisterAndNZ : Obligations.LoadsSetRegisterAndNZ := by
  refine ⟨hasEncodings_of_columns (by decide), hasEncodings_of_columns (by decide),
    hasEncodings_of_columns (by decide), fun i s hs => ?_⟩
  rw [← (loadOperand_frame i.operand s).p]
  refine ⟨fun h => ?lda, fun h => ?ldx, fun h => ?ldy⟩
  case lda => exact exec_of_isRead (f := State.lda) (fun _ _ _ => rfl) h hs (fun _ _ => rfl) fun _ _ => rfl
  case ldx => exact exec_of_isRead (f := State.ldx) (fun _ _ _ => rfl) h hs (fun _ _ => rfl) fun _ _ => rfl
  case ldy => exact exec_of_isRead (f := State.ldy) (fun _ _ _ => rfl) h hs (fun _ _ => rfl) fun _ _ => rfl

/-- Settles O20: a store has an effective address, and the register it writes there is the one it began with. -/
theorem storesWriteRegisterAtEffectiveAddress : Obligations.StoresWriteRegisterAtEffectiveAddress := by
  refine ⟨hasEncodings_of_columns (by decide), hasEncodings_of_columns (by decide),
    hasEncodings_of_columns (by decide), fun i s hs => ?_⟩
  have hr := resolve_frame i.operand s
  refine ⟨fun h => ?sta, fun h => ?stx, fun h => ?sty⟩ <;>
    obtain ⟨ea, hea⟩ := exists_ea_of_writesBack (i := i) (by rw [h]; rfl) (by simp only [writesA, h]) s
  case sta => exact ⟨ea, hea, exec_of_isStore (v := State.staValue) (fun _ _ _ => rfl) h hs hr.a hea⟩
  case stx => exact ⟨ea, hea, exec_of_isStore (v := State.stxValue) (fun _ _ _ => rfl) h hs hr.x hea⟩
  case sty => exact ⟨ea, hea, exec_of_isStore (v := State.styValue) (fun _ _ _ => rfl) h hs hr.y hea⟩

/-- Settles O21: a transfer makes no bus access, so it runs wherever no refusal is held. -/
theorem transfersCopyRegisters : Obligations.TransfersCopyRegisters := by
  refine ⟨hasEncodings_of_columns (by decide), hasEncodings_of_columns (by decide),
    hasEncodings_of_columns (by decide), hasEncodings_of_columns (by decide), hasEncodings_of_columns (by decide),
    hasEncodings_of_columns (by decide), fun s hs => ?_⟩
  exact ⟨impliedInstr_next 2 State.tax hs, impliedInstr_next 2 State.tay hs, impliedInstr_next 2 State.tsx hs,
    impliedInstr_next 2 State.txa hs, impliedInstr_next 2 State.txs hs, impliedInstr_next 2 State.tya hs⟩

end Sys2Proof.Machine
end

section
/-!
PROOF. The stack instructions (spec/42_stack.md R180 to R183). A push and a pull stay in RAM (R154), so none of the four
can refuse where no refusal is held; each is one equation of its effect (`pha_eq`, `php_eq`, `pla_eq`, `plp_eq`).
-/

open Sys2Proof.Rules

namespace Sys2Proof.Machine

/-- An implied instruction whose effect is known runs wherever that effect holds no refusal, and adds its cycles. -/
theorem impliedInstr_of_eq (base : Nat) {f : State → State} {s t : State} (hf : f s = t) (ht : t.refused = none) :
    impliedInstr base f s = .next { t with cyc := t.cyc + base } := by
  rw [impliedInstr, hf, finish_addCycles ht]

/-- Settles O22: each effect is an update of RAM or a register, read at the stack's RAM index. -/
theorem stackInstructionsPushAndPull : Obligations.StackInstructionsPushAndPull := by
  refine ⟨hasEncodings_of_columns (by decide), hasEncodings_of_columns (by decide),
    hasEncodings_of_columns (by decide), hasEncodings_of_columns (by decide), fun s hs => ?_⟩
  have hv : s.pull = s.ram.read (stackIndex (s.sp + 1)) := pull_eq s
  rw [← hv]
  exact ⟨impliedInstr_of_eq 3 (pha_eq s) hs, impliedInstr_of_eq 3 (php_eq s) hs,
    impliedInstr_of_eq 4 (pla_eq s) hs, impliedInstr_of_eq 4 (plp_eq s) hs⟩

end Sys2Proof.Machine
end

section
/-!
PROOF. The increments and decrements (spec/43_inc_dec.md R190 to R195). An instruction that reads its operand and writes
a result back is one equation of `exec` (`exec_of_isModify`), from which `ModifiesTo` follows in Accumulator mode and at
an effective address (`modifiesTo_of_isModify`); the other read-modify-write families need both as well.
-/

open Sys2Proof.Rules

namespace Sys2Proof.Machine

/-! ## An instruction that reads its operand and writes it back -/

/-- The operation reads M once, writes `g` of it once, and is then `f` (R156). -/
def IsModify (op : Operation) (g : State → Byte → Byte) (f : State → Byte → Byte → State) : Prop :=
  ∀ (o : Operand) (opcode : Byte) (s : State), meaning op o opcode s = modifyInstr o (op.baseCycles o.mode) g f s

theorem writeOperand_refused {s : State} (h : s.Ready) (ea : Option Addr) (v : Byte) :
    (s.writeOperand ea v).refused = none := by
  cases ea with
  | none => exact h.1
  | some addr => exact cpuWrite_refused h addr v

/-- An operand of Accumulator mode is A itself (R142). -/
theorem eq_accumulator_of_mode {o : Operand} (h : o.mode = .accumulator) : o = .accumulator := by
  cases o with
  | accumulator => rfl
  | _ => cases h

section
variable {op : Operation} {g : State → Byte → Byte} {f : State → Byte → Byte → State} {i : Instr} {s : State}
  {r : Byte → Byte}

/-- Where no access can refuse, such an instruction runs: `r` is what `g` is after the one read. -/
theorem exec_of_isModify (hmodify : IsModify op g f) (hop : i.operation = op) (hs : s.Ready)
    (hr : ∀ v, g (loadOperand i.operand s).st v = r v) (hrefused : ∀ t v w, (f t v w).refused = t.refused)
    (hcyc : ∀ t v w, (f t v w).cyc = t.cyc) :
    let m := loadOperand i.operand s
    exec i s = .next { f (m.st.writeOperand m.ea (r m.value)) m.value (r m.value) with
      cyc := s.cyc + i.cycles false } := by
  intro m
  have hrun : (f (m.st.writeOperand m.ea (r m.value)) m.value (r m.value)).refused = none := by
    rw [hrefused, writeOperand_refused (loadOperand_ready i.operand hs)]
  rw [exec_eq, hop, hmodify, modifyInstr, hr, finish_addCycles hrun, hcyc, writeOperand_cyc,
    (loadOperand_frame i.operand s).cyc, cycles_false, ← hop]
  rfl

/-- An instruction that writes its result back, and not in Accumulator mode, has an effective address. -/
theorem exists_ea_of_mode_ne_accumulator (hw : writesBack i.operation = true) (hm : i.mode ≠ .accumulator)
    (s : State) : ∃ ea, (loadOperand i.operand s).ea = some ea := by
  have table : (writesBack i.operation && i.mode == .implied) = false := by cases i <;> rfl
  rw [loadOperand_ea]
  refine resolve_ea i.operand s (fun h => ?implied) fun h => ?accumulator
  case implied => simp [hw, Instr.mode, h, Operand.mode] at table
  case accumulator => exact hm (by rw [Instr.mode, h, Operand.mode])

/-- Such an instruction modifies A in Accumulator mode and the byte at its effective address in every other. -/
theorem modifiesTo_of_isModify (hmodify : IsModify op g f) (hop : i.operation = op) (hw : writesBack op = true)
    (hs : s.Ready) (hr : ∀ v, g (loadOperand i.operand s).st v = r v)
    (hrefused : ∀ t v w, (f t v w).refused = t.refused) (hcyc : ∀ t v w, (f t v w).cyc = t.cyc) :
    ModifiesTo i s r f := by
  have hexec := exec_of_isModify hmodify hop hs hr hrefused hcyc
  refine ⟨fun hm => ?accumulator, fun hm => ?memory⟩
  case accumulator =>
    rw [eq_accumulator_of_mode hm] at hexec
    exact hexec
  case memory =>
    obtain ⟨ea, hea⟩ := exists_ea_of_mode_ne_accumulator (hop ▸ hw) hm s
    simp only [hea] at hexec
    exact ⟨ea, hea, hexec⟩

end

/-! ## The increments and decrements -/

/-- Settles O23: the memory forms write v + 1 or v - 1 whatever the read did to the state, and N and Z come last; the
register forms make no bus access, so they run wherever no refusal is held. -/
theorem incrementsAndDecrementsWrap : Obligations.IncrementsAndDecrementsWrap := by
  refine ⟨hasEncodings_of_columns (by decide), hasEncodings_of_columns (by decide),
    hasEncodings_of_columns (by decide), hasEncodings_of_columns (by decide), hasEncodings_of_columns (by decide),
    hasEncodings_of_columns (by decide), fun i s hs => ⟨fun h => ?inc, fun h => ?dec⟩, fun s hs => ?registers⟩
  case inc =>
    exact modifiesTo_of_isModify (g := State.incResult) (f := State.incAfter) (fun _ _ _ => rfl) h rfl hs
      (fun _ => rfl) (fun _ _ _ => rfl) fun _ _ _ => rfl
  case dec =>
    exact modifiesTo_of_isModify (g := State.decResult) (f := State.decAfter) (fun _ _ _ => rfl) h rfl hs
      (fun _ => rfl) (fun _ _ _ => rfl) fun _ _ _ => rfl
  case registers =>
    exact ⟨impliedInstr_next 2 State.inx hs, impliedInstr_next 2 State.iny hs, impliedInstr_next 2 State.dex hs,
      impliedInstr_next 2 State.dey hs⟩

end Sys2Proof.Machine
end

section
/-!
PROOF. Arithmetic and logic into A (spec/44_arithmetic_logic.md R200 to R205). The sum's carry and the source's overflow
formula are read in exact numbers once (`addCarry_iff`, `addOverflow_iff`); a subtraction is the addition of the
complement, so each of its facts is an addition's, with ~m as 255 - m unsigned and -m - 1 signed.
-/

open Sys2Proof.Rules

namespace Sys2Proof.Machine

/-! ## The sum in exact numbers -/

section
variable (a m : Byte) (c : Bool)

theorem addResult_toNat : (addResult a m c).toNat = (a.toNat + m.toNat + c.toNat) % 256 := BitVec.toNat_ofNat _ 8

theorem addCarry_iff : addCarry a m c = true ↔ 256 ≤ a.toNat + m.toNat + c.toNat := decide_eq_true_iff

/-- A mask of bit 7 is zero exactly when the bit is clear. -/
theorem and_bit7_ne_zero (v : Byte) : (v &&& 0x80#8 != 0#8) = v.msb := by
  revert v
  decide

/-- The source's formula: two summands of one sign whose result has the other. -/
theorem addOverflow_eq_signs (r : Byte) : addOverflow a m r = (a.msb == m.msb && a.msb != r.msb) := by
  rw [addOverflow, and_bit7_ne_zero, BitVec.msb_and, BitVec.msb_not, BitVec.msb_xor, BitVec.msb_xor]
  cases a.msb <;> cases m.msb <;> rfl

theorem addOverflow_iff : addOverflow a m (addResult a m c) = true ↔
    a.toInt + m.toInt + c.toNat < -128 ∨ 127 < a.toInt + m.toInt + c.toNat := by
  have ha := a.isLt
  have hm := m.isLt
  have hc := c.toNat_le
  rw [addOverflow_eq_signs, BitVec.toInt_eq_toNat_cond, BitVec.toInt_eq_toNat_cond]
  simp only [BitVec.msb_eq_decide, addResult_toNat, Bool.and_eq_true, beq_iff_eq, bne_iff_ne, ne_eq, decide_eq_decide]
  omega

/-- The complement in two's complement, with no wrap: -1 - m stays in the signed range. -/
theorem toInt_complement : (~~~m).toInt = -m.toInt - 1 := by
  have hm := m.isLt
  rw [BitVec.toInt_eq_toNat_cond, BitVec.toInt_eq_toNat_cond, BitVec.toNat_not]
  omega

end

/-! ## The adder's A and flags -/

section
variable (t : State) (m : Byte)

/-- R200, written out, is the model's adder. -/
theorem addCore_eq_addCoreOf : t.addCore m = addCoreOf t m := rfl

theorem addCore_a_toNat :
    (t.addCore m).a.toNat = (t.a.toNat + m.toNat + (t.p.getLsbD 0).toNat) % 256 := addResult_toNat _ _ _

theorem addCore_carry_iff :
    (t.addCore m).p.getLsbD 0 = true ↔ 256 ≤ t.a.toNat + m.toNat + (t.p.getLsbD 0).toNat := by
  rw [addCore_bits]
  exact addCarry_iff _ _ _

theorem addCore_overflow_iff :
    (t.addCore m).p.getLsbD 6 = true ↔
      t.a.toInt + m.toInt + (t.p.getLsbD 0).toNat < -128 ∨ 127 < t.a.toInt + m.toInt + (t.p.getLsbD 0).toNat := by
  rw [addCore_bits]
  exact addOverflow_iff _ _ _

theorem addCore_zero_iff : (t.addCore m).p.getLsbD 1 = true ↔ (t.addCore m).a = 0 := by
  rw [addCore_bits]
  exact beq_iff_eq

theorem addCore_negative : (t.addCore m).p.getLsbD 7 = (t.addCore m).a.getLsbD 7 := addCore_bits t m 7

theorem addCore_keeps_middle (b : Nat) (lo : 2 ≤ b) (hi : b ≤ 5) :
    (t.addCore m).p.getLsbD b = t.p.getLsbD b :=
  addCore_keeps (by omega) (by omega) (by omega)

theorem subCore_a_toNat :
    ((t.subCore m).a.toNat : Int) = ((t.a.toNat : Int) - m.toNat - (1 - (t.p.getLsbD 0).toNat)) % 256 := by
  have hm := m.isLt
  rw [State.subCore, addCore_a_toNat, BitVec.toNat_not]
  omega

theorem subCore_carry_iff :
    (t.subCore m).p.getLsbD 0 = true ↔ m.toNat + (1 - (t.p.getLsbD 0).toNat) ≤ t.a.toNat := by
  have hm := m.isLt
  have hc := (t.p.getLsbD 0).toNat_le
  rw [State.subCore, addCore_carry_iff, BitVec.toNat_not]
  omega

theorem subCore_overflow_iff :
    (t.subCore m).p.getLsbD 6 = true ↔
      t.a.toInt - m.toInt - (1 - (t.p.getLsbD 0).toNat) < -128 ∨
        127 < t.a.toInt - m.toInt - (1 - (t.p.getLsbD 0).toNat) := by
  rw [State.subCore, addCore_overflow_iff, toInt_complement]
  omega

end

/-! ## The additions and subtractions as instructions -/

section
variable {i : Instr} {s : State}

theorem exec_of_adc (hop : i.operation = .adc) (hs : s.Ready) :
    let m := loadOperand i.operand s
    exec i s = .next { m.st.addCore m.value with cyc := s.cyc + i.cycles m.crossed } :=
  exec_of_isRead (f := State.adc) (fun _ _ _ => rfl) hop hs (fun _ _ => rfl) fun _ _ => rfl

theorem exec_of_sbc (hop : i.operation = .sbc) (hs : s.Ready) :
    let m := loadOperand i.operand s
    exec i s = .next { m.st.subCore m.value with cyc := s.cyc + i.cycles m.crossed } :=
  exec_of_isRead (f := State.sbc) (fun _ _ _ => rfl) hop hs (fun _ _ => rfl) fun _ _ => rfl

end

/-- Settles O24: after the one read of M, ADC and SBC are the shared adder, on M and on its complement. -/
theorem addAndSubtractThroughTheSharedAdder : Obligations.AddAndSubtractThroughTheSharedAdder := by
  refine ⟨hasEncodings_of_columns (by decide), hasEncodings_of_columns (by decide), fun i s hs => ?_⟩
  simp only [← addCore_eq_addCoreOf]
  exact ⟨fun h => exec_of_adc h hs, fun h => exec_of_sbc h hs⟩

/-- Settles O25: the flags' clauses hold of the sum in exact numbers, and of the difference as a sum. -/
theorem adderFlagsMeanCarryAndOverflow : Obligations.AdderFlagsMeanCarryAndOverflow := by
  refine ⟨fun t m => ⟨?addition, ?subtraction⟩, fun i s hs => ⟨fun h => exec_of_adc h hs, fun h => exec_of_sbc h hs⟩⟩
  case addition =>
    exact ⟨addCore_frame t m, addCore_keeps_middle t m, addCore_a_toNat t m, addCore_carry_iff t m,
      addCore_overflow_iff t m, addCore_zero_iff t m, addCore_negative t m⟩
  case subtraction =>
    exact ⟨addCore_frame t (~~~m), addCore_keeps_middle t (~~~m), subCore_a_toNat t m, subCore_carry_iff t m,
      subCore_overflow_iff t m, addCore_zero_iff t (~~~m), addCore_negative t (~~~m)⟩

/-- Settles O26: after the one read of M, which leaves A and P, the result goes into A and sets N and Z. -/
theorem logicIntoAccumulator : Obligations.LogicIntoAccumulator := by
  refine ⟨hasEncodings_of_columns (by decide), hasEncodings_of_columns (by decide),
    hasEncodings_of_columns (by decide), fun i s hs => ?_⟩
  rw [← (loadOperand_frame i.operand s).a, ← (loadOperand_frame i.operand s).p]
  refine ⟨fun h => ?and, fun h => ?eor, fun h => ?ora⟩
  case and => exact exec_of_isRead (f := State.and) (fun _ _ _ => rfl) h hs (fun _ _ => rfl) fun _ _ => rfl
  case eor => exact exec_of_isRead (f := State.eor) (fun _ _ _ => rfl) h hs (fun _ _ => rfl) fun _ _ => rfl
  case ora => exact exec_of_isRead (f := State.ora) (fun _ _ _ => rfl) h hs (fun _ _ => rfl) fun _ _ => rfl

end Sys2Proof.Machine
end

section
/-!
PROOF. The shifts and rotates (spec/45_shift_rotate.md R215 to R218). Each is an instruction that reads its operand and
writes it back (`modifiesTo_of_isModify`). A rotate takes the old C after the one read of M, and the read leaves P
(`loadOperand_flag`).
-/

namespace Sys2Proof.Machine

/-- The one read of M leaves every flag (R156). -/
theorem loadOperand_flag (o : Operand) (s : State) (bit : Nat) : (loadOperand o s).st.flag bit = s.flag bit :=
  congrArg (·.getLsbD bit) (loadOperand_frame o s).p

/-- Settles O27: the shifts take nothing from the state; the rotates take the C that the one read of M left as it was. -/
theorem shiftsMoveOneBitThroughCarry : Obligations.ShiftsMoveOneBitThroughCarry := by
  refine ⟨hasEncodings_of_columns (by decide), hasEncodings_of_columns (by decide),
    hasEncodings_of_columns (by decide), hasEncodings_of_columns (by decide), fun i s hs => ?_⟩
  have oldCarry : (loadOperand i.operand s).st.flag bitC = s.p.getLsbD 0 := loadOperand_flag i.operand s bitC
  refine ⟨fun h => ?asl, fun h => ?lsr, fun h => ?rol, fun h => ?ror⟩
  case asl =>
    exact modifiesTo_of_isModify (g := State.aslResult) (f := State.aslAfter) (fun _ _ _ => rfl) h rfl hs
      (fun _ => rfl) (fun _ _ _ => rfl) fun _ _ _ => rfl
  case lsr =>
    exact modifiesTo_of_isModify (g := State.lsrResult) (f := State.lsrAfter) (fun _ _ _ => rfl) h rfl hs
      (fun _ => rfl) (fun _ _ _ => rfl) fun _ _ _ => rfl
  case rol =>
    exact modifiesTo_of_isModify (g := State.rolResult) (f := State.rolAfter) (fun _ _ _ => rfl) h rfl hs
      (fun v => congrArg (rolResult v) oldCarry) (fun _ _ _ => rfl) fun _ _ _ => rfl
  case ror =>
    exact modifiesTo_of_isModify (g := State.rorResult) (f := State.rorAfter) (fun _ _ _ => rfl) h rfl hs
      (fun v => congrArg (rorResult v) oldCarry) (fun _ _ _ => rfl) fun _ _ _ => rfl

end Sys2Proof.Machine
end

section
/-!
PROOF. The flag instructions and the compares (spec/46_flags_compare.md R225 to R234). A flag instruction is one bit
written with no bus access (`impliedInstr_setFlag`); a compare reads its operand once and then writes only P
(`compare_eq_compareOf`). Which bits those writes change is `setBit_bits` and `nzBits_bits`.
-/

open Sys2Proof.Rules

namespace Sys2Proof.Machine

/-! ## The flag instructions, R225 to R231 -/

/-- A flag instruction makes no bus access, so it runs wherever no refusal is held, and only P and the cycles move. -/
theorem impliedInstr_setFlag {s : State} (hs : s.refused = none) (base bit : Nat) (b : Bool) :
    impliedInstr base (fun t => t.setFlag bit b) s = .next { s with p := setBit s.p bit b, cyc := s.cyc + base } :=
  impliedInstr_next base (·.setFlag bit b) hs

/-- `setNZ` in bits, with the two flags in R24's order and Z as an equation. -/
theorem nzBits_bits_decide (p v : Byte) (k : Nat) : (nzBits p v).getLsbD k =
    if k = 1 then decide (v = 0) else if k = 7 then v.getLsbD 7 else p.getLsbD k := by
  rw [nzBits_bits, Bool.beq_eq_decide_eq]
  by_cases hz : k = 1
  · rw [if_pos hz, if_pos hz, if_neg (by omega)]
  · rw [if_neg hz, if_neg hz]

/-- Settles O28: each of the seven is `setFlag` of its bit, and the two writers of P are known bit by bit. -/
theorem flagInstructionsWriteOneFlag : Obligations.FlagInstructionsWriteOneFlag := by
  refine ⟨hasEncodings_of_columns (by decide), hasEncodings_of_columns (by decide),
    hasEncodings_of_columns (by decide), hasEncodings_of_columns (by decide), hasEncodings_of_columns (by decide),
    hasEncodings_of_columns (by decide), hasEncodings_of_columns (by decide), fun s hs => ?instructions,
    fun p bit b hbit k _ => setBit_bits p bit b hbit k, fun p v k _ => nzBits_bits_decide p v k⟩
  case instructions =>
    exact ⟨impliedInstr_setFlag hs 2 bitC false, impliedInstr_setFlag hs 2 bitD false,
      impliedInstr_setFlag hs 2 bitI false, impliedInstr_setFlag hs 2 bitV false,
      impliedInstr_setFlag hs 2 bitC true, impliedInstr_setFlag hs 2 bitD true, impliedInstr_setFlag hs 2 bitI true⟩

/-! ## The compares, R232 to R234 -/

/-- R232's `Compare`, written out, is the model's: only P moves. -/
theorem compare_eq_compareOf (t : State) (reg m : Byte) :
    t.compare reg m = { t with p := compareOf t.p reg m } := rfl

/-- A compare reads M once, which leaves P and its register, and then writes only P. -/
theorem exec_of_compare {op : Operation} {reg : State → Byte} (hread : IsRead op fun t m => t.compare (reg t) m)
    {i : Instr} (hop : i.operation = op) {s : State} (hs : s.Ready)
    (hreg : reg (loadOperand i.operand s).st = reg s) :
    let m := loadOperand i.operand s
    exec i s = .next { m.st with p := compareOf s.p (reg s) m.value, cyc := s.cyc + i.cycles m.crossed } := by
  intro m
  rw [exec_of_isRead hread hop hs (fun _ _ => rfl) fun _ _ => rfl, hreg, compare_eq_compareOf,
    (loadOperand_frame i.operand s).p]

/-- Settles O29: CMP, CPX and CPY are the one compare, of A, X and Y. -/
theorem comparesSetCarryZeroNegative : Obligations.ComparesSetCarryZeroNegative := by
  refine ⟨hasEncodings_of_columns (by decide), hasEncodings_of_columns (by decide),
    hasEncodings_of_columns (by decide), fun i s hs => ?_⟩
  have hm := loadOperand_frame i.operand s
  exact ⟨fun h => exec_of_compare (reg := State.a) (fun _ _ _ => rfl) h hs hm.a,
    fun h => exec_of_compare (reg := State.x) (fun _ _ _ => rfl) h hs hm.x,
    fun h => exec_of_compare (reg := State.y) (fun _ _ _ => rfl) h hs hm.y⟩

end Sys2Proof.Machine
end

section
/-!
PROOF. The Clock step (spec/60_exceptions.md R320, R321). The instruction leaves the raster alone, and the PPU then runs
three ticks for each cycle it and its stall took; an interrupt entry is run the same way (`runPpu_paced`). So the raster
and the cycle counter keep pace over one Clock step (`clock_paced`) and over any run of them.
-/

open Sys2Proof.Rules

namespace Sys2Proof.Machine

/-! ## The cycle counter and the raster under an instruction -/

/-- An instruction only adds cycles, a branch as many as its flag says (R155, R240). -/
theorem effect_cyc_le (op : Operation) (o : Operand) (s : State) : s.cyc ≤ (effect op o s).cyc := by
  have branch (off : Int) (taken : Bool) : s.cyc ≤ (branchEffect off taken s).cyc := by
    cases taken <;> exact Nat.le_add_right _ _
  cases hb : isBranch op
  case false => rw [effect_cyc o s hb]; exact Nat.le_add_right _ _
  case true =>
    cases op
    case bcc | bcs | beq | bmi | bne | bpl | bvc | bvs => exact branch _ _
    all_goals cases hb

/-- The fetch and the instruction leave the raster where it was, and the counter no lower. -/
theorem executeSingle_raster {s t : State} (h : executeSingle s = .next t) :
    s.cyc ≤ t.cyc ∧ t.ppu.dot = s.ppu.dot ∧ t.ppu.scanline = s.ppu.scanline := by
  obtain ⟨-, -, hexec⟩ := executeSingle_next h
  obtain ⟨-, ht, -⟩ := exec_next hexec
  obtain ⟨-, hdot, hline, -⟩ := memoryAccessesLeaveDevices _ _ _ hexec
  have hf := afterFetch_frame (instrLength s.fetchByte) s
  have hcyc : (State.afterFetch (instrLength s.fetchByte) s).cyc = s.cyc := hf.cyc
  refine ⟨?_, hdot.trans hf.ppu_dot, hline.trans hf.ppu_scanline⟩
  rw [ht, ← hcyc]
  exact effect_cyc_le _ _ _

/-- A Clock step that has a next state is an instruction step with what follows it. -/
theorem clock_eq_next_iff {inp : HostInput} {s : State} {r : State × Nat} :
    clock inp s = .next r ↔ s.refused = none ∧
      ∃ t, executeSingle (s.setDmaThisStep false) = .next t ∧ r = finishClock inp (t.cyc - s.cyc) t := by
  unfold clock
  cases s.refused with
  | some q => simp
  | none => cases executeSingle (s.setDmaThisStep false) <;> simp [eq_comm]

/-! ## The Clock step in its parts -/

/-- The state in which a Clock step looks for an interrupt: after the instruction, its DMA stall and their ticks. -/
def beforeInterrupt (inp : HostInput) (c : Nat) (t : State) : State :=
  let stall := if t.dmaThisStep then dmaStall t.cyc else 0
  (t.addCycles stall).runPpu inp.draws (ticksPerCycle * (c + stall))

/-- What follows the instruction, where `k` is the entry due (R314). -/
theorem finishClock_of_pending {inp : HostInput} {c : Nat} {t : State} {k : Pending}
    (hk : pendingInterrupt inp.irqLine (beforeInterrupt inp c t) = k) :
    let stall := if t.dmaThisStep then dmaStall t.cyc else 0
    let v := takeInterrupt k (beforeInterrupt inp c t)
    finishClock inp c t = (v.runPpu inp.draws (interruptTicks k),
      t.ppu.frames inp.draws (ticksPerCycle * (c + stall)) + v.ppu.frames inp.draws (interruptTicks k)) := by
  subst hk
  rfl

/-- Settles O10: which entry is due is R314's order, and each is its own 8 cycles and 24 ticks. -/
theorem clockTicksThenEntersOneInterrupt : Obligations.ClockTicksThenEntersOneInterrupt := by
  intro inp s t hs ht c stall n u f entered
  refine ⟨(executeSingle_raster ht).1, clock_eq_next_iff.mpr ⟨hs, t, ht, ?_⟩⟩
  by_cases hnmi : u.ppu.nmiPending = true
  · rw [if_pos hnmi, finishClock_of_pending (k := .nmi) (if_pos hnmi)]
    rfl
  · rw [if_neg hnmi]
    by_cases hirq : (inp.irqLine && !u.p.getLsbD 2) = true
    · rw [if_pos hirq, finishClock_of_pending (k := .irq) ((if_neg hnmi).trans (if_pos hirq))]
      rfl
    · rw [if_neg hirq, finishClock_of_pending (k := .none) ((if_neg hnmi).trans (if_neg hirq))]
      rfl

/-! ## The raster keeps pace with the counter, R321 -/

/-- From `s` to `t` the raster moves three ticks for each cycle, counting the frames completed. -/
structure Paced (s t : State) (frames : Nat) : Prop where
  cyc : s.cyc ≤ t.cyc
  raster : rasterPosition t.ppu + 89342 * frames = rasterPosition s.ppu + 3 * ((t.cyc : Int) - s.cyc)
  inRange : RasterInRange t.ppu

theorem Paced.refl {s : State} (h : RasterInRange s.ppu) : Paced s s 0 := ⟨le_rfl, by simp, h⟩

theorem Paced.trans {s t u : State} {f g : Nat} (h : Paced s t f) (h' : Paced t u g) : Paced s u (f + g) := by
  refine ⟨h.cyc.trans h'.cyc, ?_, h'.inRange⟩
  have := h.raster
  have := h'.raster
  push_cast
  omega

/-- Anything that takes `k` cycles and leaves the raster alone is paced once the PPU has run three ticks for each. -/
theorem runPpu_paced (draws : List RenderDraw) {s t : State} {k n : Nat} (hr : RasterInRange s.ppu)
    (hcyc : t.cyc = s.cyc + k) (hdot : t.ppu.dot = s.ppu.dot) (hline : t.ppu.scanline = s.ppu.scanline)
    (hn : n = 3 * k) : Paced s (t.runPpu draws n) (t.ppu.frames draws n) := by
  have ht : RasterInRange t.ppu := by rw [RasterInRange, hdot, hline]; exact hr
  have hpos : rasterPosition t.ppu = rasterPosition s.ppu := by rw [rasterPosition, hdot, hline, rasterPosition]
  obtain ⟨hrange, hticks⟩ := ticks_rasterPosition draws ht n
  refine ⟨?cyc, ?raster, hrange⟩
  case cyc => rw [State.runPpu, setPpu_cyc]; omega
  case raster => rw [State.runPpu, setPpu_cyc, setPpu_ppu]; omega

/-- An interrupt entry leaves the raster alone, and its ticks are three for each of its cycles (R310, R311). -/
theorem takeInterrupt_cycles (k : Pending) (s : State) : ∃ n, interruptTicks k = 3 * n ∧
    (takeInterrupt k s).cyc = s.cyc + n ∧ (takeInterrupt k s).ppu.dot = s.ppu.dot ∧
    (takeInterrupt k s).ppu.scanline = s.ppu.scanline := by
  cases k
  case nmi => exact ⟨8, rfl, by simp only [takeInterrupt, nmi_eq]; exact ⟨rfl, rfl, rfl⟩⟩
  case irq => exact ⟨8, rfl, by simp only [takeInterrupt, irq_eq]; exact ⟨rfl, rfl, rfl⟩⟩
  case none => exact ⟨0, rfl, rfl, rfl, rfl⟩

theorem clock_paced {inp : HostInput} {s t : State} {frames : Nat} (hr : RasterInRange s.ppu)
    (h : clock inp s = .next (t, frames)) : Paced s t frames := by
  obtain ⟨-, w, hw, heq⟩ := clock_eq_next_iff.mp h
  obtain ⟨hcyc, hdot, hline⟩ := executeSingle_raster hw
  obtain ⟨n, hn, hcyc', hdot', hline'⟩ := takeInterrupt_cycles
    (pendingInterrupt inp.irqLine (beforeInterrupt inp (w.cyc - s.cyc) w)) (beforeInterrupt inp (w.cyc - s.cyc) w)
  rw [finishClock_of_pending rfl, Prod.mk.injEq] at heq
  obtain ⟨rfl, rfl⟩ := heq
  have instruction : Paced s (beforeInterrupt inp (w.cyc - s.cyc) w) _ :=
    runPpu_paced inp.draws hr (t := w.addCycles (if w.dmaThisStep then dmaStall w.cyc else 0))
      (by simp only [addCycles_cyc, setDmaThisStep_cyc] at hcyc ⊢; omega) hdot hline rfl
  exact instruction.trans (runPpu_paced inp.draws instruction.inRange hcyc' hdot' hline' hn)

theorem runClocks_paced {inputs : List HostInput} {s t : State} {frames : Nat} (hr : RasterInRange s.ppu)
    (h : runClocks inputs s = some (t, frames)) : Paced s t frames := by
  induction inputs generalizing s frames with
  | nil =>
    cases h
    exact .refl hr
  | cons inp rest ih =>
    unfold runClocks at h
    split at h
    case h_1 u f hclock =>
      obtain ⟨⟨v, g⟩, hrest, heq⟩ := Option.map_eq_some_iff.mp h
      cases heq
      have first := clock_paced hr hclock
      exact first.trans (ih first.inRange hrest)
    case h_2 => cases h

/-- Settles O49, by induction on the inputs: each Clock step keeps pace and leaves the counters in range. -/
theorem threePpuTicksPerCpuCycle : Obligations.ThreePpuTicksPerCpuCycle := by
  intro inputs s t frames hr h
  obtain ⟨hcyc, hraster, hrange⟩ := runClocks_paced hr h
  exact ⟨hcyc, hraster, hrange⟩

end Sys2Proof.Machine
end

section
/-!
PROOF. Reset and power-on (spec/70_reset_and_hazards.md R370 to R373). The reset vector is read from PRG ROM, with no
effect, so Reset is one record update (`busReset_eq`).
-/

open Sys2Proof.Rules

namespace Sys2Proof.Machine

/-- A read at or above 0x8000 is of PRG ROM, with no effect (R70, R78). -/
theorem afterRead_prgRom (s : State) {addr : Addr} (h : 0x8000 ≤ addr.toNat) : s.afterRead addr = s := by
  rw [State.afterRead, busTarget_prgRom s h]

/-- Reset writes the registers, and PC from the vector's two bytes of PRG ROM; everything else stays. -/
theorem busReset_eq (s : State) :
    s.busReset = { s with
      a := 0, x := 0, y := 0, sp := 0xFD, p := 0x20, cyc := 7,
      pc := joinBytes (s.cpuRead 0xFFFD) (s.cpuRead 0xFFFC),
      ppu := Ppu.afterReset s.ppu.vram s.ppu.palette s.ppu.oam, pad := s.pad.reset, dmaThisStep := false } := by
  have noEffect (t : State) : t.afterRead 0xFFFC = t ∧ t.afterRead (0xFFFC + 1) = t :=
    ⟨afterRead_prgRom t (by decide), afterRead_prgRom t (by decide)⟩
  simp only [State.busReset, State.cpuReset, State.afterRead16, State.read16, noEffect]
  rfl

/-- Settles O1: every field of `State.reset` is written out, and its PC is the vector's word. -/
theorem resetValues : Obligations.ResetValues :=
  ⟨rfl, rfl, rfl, rfl, rfl, reset_pc_is_vector, rfl, rfl, rfl, rfl, rfl, rfl, rfl, rfl, rfl, rfl, rfl, rfl, rfl, rfl,
    rfl, rfl, rfl, rfl, rfl, rfl, rfl⟩

/-- Settles O2: power-on is itself a Reset, and a Reset writes none of what it reads. -/
theorem resetAndPowerOnSetEveryRegister : Obligations.ResetAndPowerOnSetEveryRegister := by
  refine ⟨busReset_eq, fun cart params init => ?_⟩
  dsimp only [powerOn]
  rw [busReset_eq, busReset_eq]
  exact ⟨rfl, rfl, rfl, rfl, rfl, rfl, rfl, rfl, rfl, rfl, rfl⟩

/-- The PPU that Reset leaves is in range over memories in their canonical form. -/
theorem afterReset_inv {vram palette oam : Memory} (hv : vram.Canonical Config.vramSize)
    (hp : palette.Canonical Config.paletteSize) (ho : oam.Canonical Config.oamSize) :
    (Ppu.afterReset vram palette oam).Inv :=
  ⟨show 0#8 &&& 0x1F#8 = 0#8 by decide, Nat.zero_le _, show (-1 : Int) ≤ -1 ∧ (-1 : Int) ≤ 260 by decide, hv, hp,
    ho⟩

/-- Settles O52: Reset gives P, the PPU and the controller values in range, and leaves the rest of the invariant. -/
theorem resetSatisfiesTheInvariant : Obligations.ResetSatisfiesTheInvariant := by
  have empty (size : Nat) : Memory.Canonical [] size := ⟨rfl, rfl⟩
  have status : (0x20#8).getLsbD bitB = false ∧ (0x20#8).getLsbD bitU = true := by decide
  refine ⟨?reset, fun s h => ?busReset⟩
  case reset =>
    exact ⟨status.1, status.2, empty _, afterReset_inv (empty _) (empty _) (empty _), Nat.zero_le _, empty _, empty _,
      empty _, rfl, rfl⟩
  case busReset =>
    rw [busReset_eq]
    exact ⟨status.1, status.2, h.ram, afterReset_inv h.ppu.vram h.ppu.palette h.ppu.oam, Nat.zero_le _, h.chr, h.prgRam, h.prg,
      h.illegal, h.running⟩

end Sys2Proof.Machine
end

section
/-!
PROOF. The instruction step and its refusals (spec/60_exceptions.md R300 to R303, R316). The bytes the fetch reads are
the encoding of the instruction it decodes (`encode_fetchInstr`), and an encoding names one well-formed instruction
(`encode_injective`); an instruction refuses as an unsupported byte or as R88 does, and never under the loader's
mirroring (`exec_cases`).
-/

open Sys2Proof.Rules

namespace Sys2Proof.Machine

/-! ## The fetched instruction, R300 -/

/-- No two well-formed instructions have one encoding: each is what it decodes to (R123). -/
theorem encode_injective {i j : Instr} (hi : i.wf = true) (hj : j.wf = true) (h : encode i = encode j) : i = j := by
  have di := decodeOfEncodeIsTheInstruction i [] hi
  have dj := decodeOfEncodeIsTheInstruction j [] hj
  rw [h, dj, Except.ok.injEq, Prod.mk.injEq] at di
  exact di.1.symm

/-- The bytes the fetch reads are the encoding of the instruction it decodes (R120, R127). -/
theorem encode_fetchInstr (s : State) : encode s.fetchInstr = State.fetchBytes (instrLength s.fetchByte) s := by
  have htwo := operandBytes_le_two (modeOf s.fetchByte)
  rw [State.fetchInstr, encode_decodeOp, instrLength_eq]
  generalize (modeOf s.fetchByte).operandBytes = n at htwo ⊢
  interval_cases n <;> rfl

/-- Where the bytes at PC are the encoding of a well-formed instruction, the fetch decodes it, and reads no more. -/
theorem fetchInstr_of_fetchBytes {s : State} {i : Instr} (hi : i.wf = true)
    (h : State.fetchBytes (encode i).length s = encode i) :
    s.fetchInstr = i ∧ instrLength s.fetchByte = (encode i).length := by
  have hop : s.fetchByte = i.opcode := List.head_eq_of_cons_eq h
  obtain ⟨hlen, -⟩ := Laws.Encoding.statement i hi
  rw [← hop] at hlen
  refine ⟨encode_injective (decodeOp_wf _ _ _) hi ?_, hlen.symm⟩
  rw [encode_fetchInstr, ← hlen, h]

/-- Settles O8: the fetch decodes the instruction, and the Clock step is its meaning and what follows it. -/
theorem stepRunsDecodedInstruction : Obligations.StepRunsDecodedInstruction := by
  intro s i hs hi s0 s1 hbytes hfetched
  obtain ⟨hinstr, hlen⟩ := fetchInstr_of_fetchBytes hi hbytes
  have hpc : s0.pc = s.pc := by simp only [s0, setDmaThisStep_pc, takeInput_eq]
  have hcyc : s.takeInput.cyc = s.cyc := by rw [takeInput_eq]
  have hrefused : s.takeInput.refused = none := by rw [takeInput_eq]; exact hs
  have hexec : executeSingle s0 = exec i s1 := by simp only [executeSingle, hlen, hfetched, hinstr, s1]
  refine ⟨by rw [afterFetch_pc, hpc], ?_⟩
  simp only [step, clockNext, clock, hrefused, hcyc]
  rw [show executeSingle (s.takeInput.setDmaThisStep false) = exec i s1 from hexec]
  cases exec i s1 <;> rfl

/-! ## Refusals, R302 and R303 -/

/-- Settles O11: a held refusal is the first thing the Clock step looks at, and Reset writes no refusal. -/
theorem refusalIsSticky : Obligations.RefusalIsSticky := by
  refine ⟨fun inp s r _ h => by rw [hostClock, h], fun inp s r h => ?_⟩
  have hclock (inp : HostInput) {t : State} (ht : t.refused = some r) : clock inp t = .refused r := by
    simp only [clock, ht]
  have htaken : s.takeInput.refused = some r := by rw [takeInput_eq]; exact h
  refine ⟨hclock inp h, ?step, ?host, ?reset⟩
  case step => rw [step, clockNext, hclock _ htaken]
  case host =>
    rw [hostClock, hclock inp h]
    simp only [← h]
  case reset => rw [busReset_eq]; exact h

/-- R303: the outcomes of an instruction where no refusal is held. -/
theorem exec_cases (i : Instr) {s : State} (hs : s.refused = none) :
    (i.operation = .unsupported ∧ exec i s = .refused (.unsupportedOpcode i.opcode)) ∨
    (i.operation ≠ .unsupported ∧ ∃ t, exec i s = .next t ∧ t.refused = none) ∨
    (i.operation ≠ .unsupported ∧ s.mirroring = .fourScreen ∧ exec i s = .refused .fourScreenUnsupported) := by
  by_cases hu : i.operation = .unsupported
  · exact .inl ⟨hu, by rw [exec_eq, hu]; rfl⟩
  · refine .inr ?_
    rw [exec_of_effect i s hu]
    have honly : OnlyFourScreen s := .inl hs
    rcases honly.effect i.operation i.operand with hr | hr
    · exact .inl ⟨hu, _, finish_of_none hr, hr⟩
    · refine .inr ⟨hu, ?_, finish_of_some hr⟩
      by_contra hm
      rw [(effect_kept _ _ s hm).1, hs] at hr
      cases hr

/-- Settles O12: the refusal mark the instruction's effect leaves is none or R88's, and R88's only under FourScreen. -/
theorem everyInstructionSucceedsOrRefuses : Obligations.EveryInstructionSucceedsOrRefuses :=
  fun i _ hs => exec_cases i hs

/-! ## A machine the loader can produce -/

theorem takeInput_ready {s : State} (h : s.Ready) : s.takeInput.Ready := by
  rw [takeInput_eq]
  exact h

/-- Under the loader's mirroring an instruction step has a next state unless the fetched byte is unsupported. -/
theorem executeSingle_of_supported {s : State} (hs : s.Ready) (h : s.fetchByte ∉ unsupportedBytes) :
    ∃ t, executeSingle s = .next t := by
  have hf := afterFetch_frame (instrLength s.fetchByte) s
  have hrefused : (State.afterFetch (instrLength s.fetchByte) s).refused = none := (hf.refused hs.2).trans hs.1
  have hop : s.fetchInstr.operation ≠ .unsupported := fun hu => h ((decodeOp_unsupported_iff _ _ _).mp hu)
  simp only [executeSingle, hrefused]
  rcases exec_cases s.fetchInstr hrefused with ⟨hu, -⟩ | ⟨-, t, ht, -⟩ | ⟨-, hm, -⟩
  · exact absurd hu hop
  · exact ⟨t, ht⟩
  · exact absurd (hf.mirroring.symm.trans hm) hs.2

/-- Settles O13: the fetch cannot refuse and the instruction refuses only as unsupported; a step keeps the header. -/
theorem readyMachineStepsUnlessOpcodeUnsupported : Obligations.ReadyMachineStepsUnlessOpcodeUnsupported := by
  intro s hs op
  have htaken : (s.takeInput.setDmaThisStep false).Ready := takeInput_ready hs
  refine ⟨fun h => ?refuses, fun h => ?steps⟩
  case refuses => rw [step, clockNext, clock_of_unsupported s.nextInput (takeInput_ready hs) h]; rfl
  case steps =>
    obtain ⟨u, hu⟩ := executeSingle_of_supported htaken h
    have hclock := clock_eq_next_iff (inp := s.nextInput).mpr ⟨(takeInput_ready hs).1, u, hu, rfl⟩
    have hstep : step s = .next (finishClock s.nextInput (u.cyc - s.takeInput.cyc) u).1 := by
      rw [step, clockNext, hclock]
    obtain ⟨hheader, -⟩ := stepsKeepCartridgeRomAndParameters.1 s _ hstep
    refine ⟨_, hstep, ?_, ?_⟩
    · rw [(finishClock_frame _ _ u).1]
      exact (executeSingle_next hu).1
    · rw [State.mirroring, hheader]
      exact hs.2

end Sys2Proof.Machine
end

section
/-!
PROOF. The control transfers (spec/47_control_transfer.md R240 to R253). The branches share one outcome
(`branchInstr_eq`); JSR, RTS, BRK and RTI touch only the stack, the vector and PC, so none of them can refuse where no
refusal is held, and each is one equation of its effect.
-/

open Sys2Proof.Rules

namespace Sys2Proof.Machine

/-! ## The branches, R240 -/

/-- The common branch rule: PC and the cycles move, and nothing else. -/
theorem branchInstr_eq (off : Int) (cond : State → Bool) {s : State} (hs : s.refused = none) :
    branchInstr off cond s = branchOutcome (cond s) off s := by
  have pages (ea : Addr) :
      pageCrossed s.pc ea = true ↔ s.pc &&& 0xFF00#16 ≠ ea &&& 0xFF00#16 := by
    rw [pageCrossed_eq_pagesDiffer, pagesDiffer, bne_iff_ne]
  unfold branchInstr branchOutcome
  split
  case isTrue =>
    rw [finish_addCycles (by exact hs)]
    simp only [resolve, State.jumpTo, State.setPc, pages, branchTarget, Nat.add_assoc]
  case isFalse => exact finish_addCycles hs 2

/-- Settles O30: the eight branches are the one rule, each on its own flag. -/
theorem branchesJumpOnTheirFlag : Obligations.BranchesJumpOnTheirFlag := by
  refine ⟨hasEncodings_of_columns (by decide), hasEncodings_of_columns (by decide),
    hasEncodings_of_columns (by decide), hasEncodings_of_columns (by decide), hasEncodings_of_columns (by decide),
    hasEncodings_of_columns (by decide), hasEncodings_of_columns (by decide), hasEncodings_of_columns (by decide),
    fun off s hs => ?_⟩
  exact ⟨branchInstr_eq off State.bccTaken hs, branchInstr_eq off State.bcsTaken hs,
    branchInstr_eq off State.beqTaken hs, branchInstr_eq off State.bmiTaken hs, branchInstr_eq off State.bneTaken hs,
    branchInstr_eq off State.bplTaken hs, branchInstr_eq off State.bvcTaken hs, branchInstr_eq off State.bvsTaken hs⟩

/-! ## The jumps, the call and the return, R249 to R251 -/

theorem exec_jmpAbs (addr : Addr) {s : State} (hs : s.refused = none) :
    exec (.jmpAbs addr) s = .next { s with pc := addr, cyc := s.cyc + 3 } :=
  finish_addCycles (s := s.setPc addr) hs 3

/-- JMP Indirect (R150, R249): the two reads of the pointer, low byte first and the high byte in its page. -/
theorem exec_jmpInd (ptr : Addr) {s : State} (hs : s.Ready) :
    exec (.jmpInd ptr) s = .next { s.afterReadPair ptr (indirectHi ptr) with
      pc := s.readPair ptr (indirectHi ptr), cyc := s.cyc + 5 } := by
  have hf := afterReadPair_frame s ptr (indirectHi ptr)
  have hjump : exec (.jmpInd ptr) s = finish (((s.afterReadPair ptr (indirectHi ptr)).setPc
      (s.readPair ptr (indirectHi ptr))).addCycles 5) := rfl
  rw [hjump, finish_addCycles (by exact (hf.refused hs.2).trans hs.1), setPc_cyc, hf.cyc]
  rfl

/-- JSR (R250): the call pushes PC - 1 and jumps. -/
theorem exec_jsr (addr : Addr) {s : State} (hs : s.refused = none) :
    exec (.jsr addr) s = .next { s with
      ram := (s.ram.write (stackIndex s.sp) (hiByte (s.pc - 1))).write (stackIndex (s.sp - 1)) (loByte (s.pc - 1)),
      sp := s.sp - 2, pc := addr, cyc := s.cyc + 6 } := by
  have hcall : exec (.jsr addr) s = finish (((s.push16 (s.pc - 1)).setPc addr).addCycles 6) := rfl
  rw [hcall, push16_eq, finish_addCycles (by exact hs)]
  rfl

/-- RTS (R251): PC is one past the pulled word. -/
theorem exec_rts {s : State} (hs : s.refused = none) :
    exec .rts s = .next { s with
      pc := joinBytes (s.ram.read (stackIndex (s.sp + 2))) (s.ram.read (stackIndex (s.sp + 1))) + 1,
      sp := s.sp + 2, cyc := s.cyc + 6 } := by
  have hword : s.pull16 = joinBytes (s.ram.read (stackIndex (s.sp + 2))) (s.ram.read (stackIndex (s.sp + 1))) :=
    pull16_eq s
  rw [← hword]
  exact impliedInstr_of_eq 6 (rts_eq s) hs

/-- Settles O31: the addresses are the operand, the pointer's word and the stack's word. -/
theorem jumpsCallsAndReturns : Obligations.JumpsCallsAndReturns := by
  refine ⟨hasEncodings_of_columns (by decide), hasEncodings_of_columns (by decide),
    hasEncodings_of_columns (by decide), fun addr s hs => ⟨exec_jmpAbs addr hs, exec_jsr addr hs, exec_rts hs⟩,
    fun ptr s hs => ?_⟩
  rw [← indirectHi_eq_masks]
  exact exec_jmpInd ptr hs

/-! ## BRK and RTI, R252 and R253 -/

/-- RTI (R253): P and then the word of PC, with no + 1. -/
theorem exec_rti {s : State} (hs : s.refused = none) :
    exec .rti s = .next { s with
      p := pulledStatus (s.ram.read (stackIndex (s.sp + 1))),
      pc := joinBytes (s.ram.read (stackIndex (s.sp + 3))) (s.ram.read (stackIndex (s.sp + 2))),
      sp := s.sp + 3, cyc := s.cyc + 6 } :=
  impliedInstr_of_eq 6 (rti_eq s) hs

/-- Settles O32: both are record updates of the stack's bytes in RAM. -/
theorem breakEntersAndRtiReturns : Obligations.BreakEntersAndRtiReturns :=
  ⟨hasEncodings_of_columns (by decide), hasEncodings_of_columns (by decide),
    fun s hs => ⟨impliedInstr_of_eq 7 (brk_eq s) hs, exec_rti hs⟩⟩

end Sys2Proof.Machine
end

section
/-!
PROOF. The interrupt entries and the returns (spec/60_exceptions.md R310 to R317). NMI, IRQ and BRK are `entryOf` with
their own return address, status byte and vector. The three bytes an entry pushes, and the two of JSR, lie at different
indices of RAM at every SP, so each is read back as it was pushed (`entryOf_stack`), and RTI or RTS finds them there.
-/

open Sys2Proof.Rules

namespace Sys2Proof.Machine

/-! ## The stack bytes -/

theorem cpuRead_stackAddr (s : State) (sp : Byte) : s.cpuRead (stackAddr sp) = s.ram.read (stackIndex sp) := by
  rw [State.cpuRead, busTarget_stackAddr, stackIndex]

/-- Within the page every SP has its own index, also where it wraps. -/
theorem stackIndex_ne {a b : Byte} (h : a ≠ b) : stackIndex a ≠ stackIndex b :=
  fun he => h (BitVec.eq_of_toNat_eq (Nat.add_left_cancel he))

theorem read_write_stack_ne (m : Memory) {a b : Byte} (v : Byte) (h : a ≠ b) :
    (m.write (stackIndex b) v).read (stackIndex a) = m.read (stackIndex a) :=
  read_write_other m v (stackIndex_ne h)

/-- Two bytes pushed one after the other are both there (R154). -/
theorem read_push_push (m : Memory) (sp v w : Byte) :
    let pushed := (m.write (stackIndex sp) v).write (stackIndex (sp - 1)) w
    pushed.read (stackIndex sp) = v ∧ pushed.read (stackIndex (sp - 1)) = w := by
  have h01 : sp ≠ sp - 1 := by bv_omega
  exact ⟨by rw [read_write_stack_ne _ _ h01, read_write_same], read_write_same _ _ _⟩

/-- The three bytes an entry pushes are at the stack after it (R312). -/
theorem entryOf_stack (s : State) (ret : Addr) (status : Byte) (vector : Addr) :
    let t := entryOf s ret status vector
    t.ram.read (stackIndex s.sp) = hiByte ret ∧ t.ram.read (stackIndex (s.sp - 1)) = loByte ret ∧
      t.ram.read (stackIndex (s.sp - 2)) = status := by
  have h02 : s.sp ≠ s.sp - 2 := by bv_omega
  have h12 : s.sp - 1 ≠ s.sp - 2 := by bv_omega
  obtain ⟨hhi, hlo⟩ := read_push_push s.ram s.sp (hiByte ret) (loByte ret)
  refine ⟨?_, ?_, read_write_same _ _ _⟩
  · exact (read_write_stack_ne _ status h02).trans hhi
  · exact (read_write_stack_ne _ status h12).trans hlo

/-! ## The three entries, R310 to R313 -/

theorem nmi_eq_entryOf (s : State) : s.nmi = entryOf s s.pc (pushedByInterrupt s.p) 0xFFFA := nmi_eq s

theorem irq_eq_entryOf (s : State) : s.irq = entryOf s s.pc (pushedByInterrupt s.p) 0xFFFE := irq_eq s

theorem brk_eq_entryOf (s : State) : s.brk = entryOf s (s.pc + 1) (pushedByInstr s.p) 0xFFFE := brk_eq s

theorem entryOf_cpuRead_status (s : State) (ret : Addr) (status : Byte) (vector : Addr) :
    (entryOf s ret status vector).cpuRead (stackAddr (s.sp - 2)) = status := by
  obtain ⟨-, -, h⟩ := entryOf_stack s ret status vector
  rw [cpuRead_stackAddr, h]

/-- R310, R311, R252: the pushed B is 0 for an interrupt and 1 for BRK. -/
theorem pushed_break (p : Byte) :
    (pushedByInterrupt p).getLsbD 4 = false ∧ (pushedByInstr p).getLsbD 4 = true := by
  simp [pushedByInterrupt, pushedByInstr]

/-- Settles O50: the three entries are the one sequence, whose pushed bytes are read back, and a vector is PRG ROM. -/
theorem interruptEntriesShareOneSequence : Obligations.InterruptEntriesShareOneSequence := by
  intro s
  refine ⟨nmi_eq_entryOf s, irq_eq_entryOf s, brk_eq_entryOf s, fun ret status vector => ?pushed, ⟨?nmi, ?irq, ?brk⟩,
    ?nmiVector, ?irqVector⟩
  case pushed =>
    simp only [cpuRead_stackAddr]
    exact entryOf_stack s ret status vector
  case nmi => rw [nmi_eq_entryOf, entryOf_cpuRead_status, (pushed_break s.p).1]
  case irq => rw [irq_eq_entryOf, entryOf_cpuRead_status, (pushed_break s.p).1]
  case brk => rw [brk_eq_entryOf, entryOf_cpuRead_status, (pushed_break s.p).2]
  case nmiVector => exact read16_vector s (by decide) (by decide)
  case irqVector => exact read16_vector s (by decide) (by decide)

/-! ## The returns, R317 -/

/-- What P is after a return depends on neither the B nor the U that was pushed (D5). -/
theorem pulledStatus_pushed (p : Byte) :
    pulledStatus (pushedByInterrupt p) = pulledStatus p ∧ pulledStatus (pushedByInstr p) = pulledStatus p := by
  revert p
  decide

/-- RTI after an entry finds the status byte and the return address the entry pushed. -/
theorem exec_rti_entryOf {s : State} (hs : s.refused = none) (ret : Addr) (status : Byte) (vector : Addr) :
    exec .rti (entryOf s ret status vector) = .next { entryOf s ret status vector with
      p := pulledStatus status, pc := ret, sp := s.sp, cyc := s.cyc + 6 } := by
  have sp1 : s.sp - 3 + 1 = s.sp - 2 := by bv_omega
  have sp2 : s.sp - 3 + 2 = s.sp - 1 := by bv_omega
  have sp3 : s.sp - 3 + 3 = s.sp := by bv_omega
  have hsp : (entryOf s ret status vector).sp = s.sp - 3 := rfl
  obtain ⟨hhi, hlo, hstatus⟩ := entryOf_stack s ret status vector
  rw [exec_rti (by exact hs), hsp, sp1, sp2, sp3, hhi, hlo, hstatus, joinBytes_hi_lo]
  rfl

/-- JSR and then RTS: only the two pushed bytes and the cycles are left of them. -/
theorem exec_rts_jsr {s : State} (hs : s.refused = none) (addr : Addr) :
    ∃ t, exec (.jsr addr) s = .next t ∧ t.pc = addr ∧
      exec .rts t = .next { s with ram := t.ram, cyc := s.cyc + 12 } := by
  have sp1 : s.sp - 2 + 1 = s.sp - 1 := by bv_omega
  have sp2 : s.sp - 2 + 2 = s.sp := by bv_omega
  have hpc : s.pc - 1 + 1 = s.pc := by bv_omega
  obtain ⟨hhi, hlo⟩ := read_push_push s.ram s.sp (hiByte (s.pc - 1)) (loByte (s.pc - 1))
  refine ⟨_, exec_jsr addr hs, rfl, ?_⟩
  rw [exec_rts (by exact hs)]
  dsimp only
  rw [sp1, sp2, hhi, hlo, joinBytes_hi_lo, hpc]

/-- Settles O51: the pulled bytes are those that were pushed. -/
theorem returnsUndoEntriesAndCalls : Obligations.ReturnsUndoEntriesAndCalls := by
  intro s hs back
  have undone {ret : Addr} {status : Byte} {vector : Addr} (h : pulledStatus status = pulledStatus s.p) :
      back (entryOf s ret status vector) ret :=
    ⟨_, exec_rti_entryOf hs ret status vector, rfl, rfl, h, rfl, rfl, rfl⟩
  obtain ⟨hinterrupt, hinstr⟩ := pulledStatus_pushed s.p
  rw [nmi_eq_entryOf, irq_eq_entryOf, brk_eq_entryOf]
  refine ⟨undone hinterrupt, undone hinterrupt, undone hinstr, fun addr => ?_⟩
  obtain ⟨t, hjsr, hpc, hrts⟩ := exec_rts_jsr hs addr
  exact ⟨t, _, hjsr, hrts, hpc, rfl, rfl, rfl, rfl, rfl, rfl⟩

end Sys2Proof.Machine
end

section
/-!
PROOF. The PPU's register contract (spec/60_exceptions.md R350 to R358), the controller (R360, R361) and one tick of the
PPU (R340 to R343). A register access is one equation per register; the controller's index after k reads is k until it
stops past the last button; and a list with one draw for each visible dot answers as any oracle does there.
-/

open Sys2Proof.Rules

namespace Sys2Proof.Machine

/-! ## The PPU registers, R350 to R358 -/

/-- R357 at a palette address: the byte is read at once and the buffer stays. -/
theorem dataRead_palette {s : State} (h : 0x3F00 ≤ s.ppu.vramAddr.toNat) :
    s.ppuRegRead 7 = s.ppuRead s.ppu.vramAddr ∧
      s.afterPpuRegRead 7 = { s with ppu := { s.ppu with vramAddr := s.ppu.vramAddr + s.ppu.increment } } := by
  obtain ⟨-, hread, -⟩ := access_palette 0 (ppuTarget_palette (m := s.mirroring) h)
  refine ⟨if_pos h, ?_⟩
  simp only [State.afterPpuRegRead, State.afterDataRead, hread, if_pos h]
  rfl

/-- R357 below the palette: the buffer is returned and refilled. -/
theorem dataRead_buffered {s : State} (h : ¬0x3F00 ≤ s.ppu.vramAddr.toNat) :
    s.ppuRegRead 7 = s.ppu.readBuf ∧ (s.mirroring ≠ .fourScreen →
      s.afterPpuRegRead 7 = { s with ppu := { s.ppu with
        readBuf := s.ppuRead s.ppu.vramAddr, vramAddr := s.ppu.vramAddr + s.ppu.increment } }) := by
  refine ⟨if_neg h, fun hm => ?_⟩
  have hread : s.afterPpuRead s.ppu.vramAddr = s :=
    (afterPpuRead_cases s s.ppu.vramAddr).resolve_right fun hfour => hm hfour.1
  simp only [State.afterPpuRegRead, State.afterDataRead, hread, if_neg h]
  rfl

/-- R356, the first write: bits 13:8 are replaced, as the rule writes it in 16 bits. -/
theorem addr_firstWrite (v : Byte) (a : VAddr) :
    ((v.setWidth 14) <<< 8) ||| (a &&& 0x00FF#14) =
      ((v ++ 0x00#8) ||| (a.setWidth 16 &&& 0x00FF#16)).setWidth 14 := by
  have high : v.setWidth 14 <<< 8 = (v ++ 0x00#8).setWidth 14 := by
    apply BitVec.eq_of_toNat_eq
    show (v.setWidth 14 <<< 8).toNat = ((joinBytes v 0x00).setWidth 14).toNat
    rw [BitVec.toNat_shiftLeft, BitVec.toNat_setWidth, BitVec.toNat_setWidth, joinBytes_toNat, Nat.shiftLeft_eq]
    simp
  rw [BitVec.setWidth_or, BitVec.setWidth_and, high, BitVec.setWidth_setWidth_of_le a (by decide), BitVec.setWidth_eq]
  rfl

/-- Settles O45: one equation for each register's read and write. -/
theorem ppuRegisterContract : Obligations.PpuRegisterContract := by
  intro s v p a inc palette
  refine ⟨fun r hr => ?writeOnly, ⟨rfl, rfl⟩, ⟨rfl, rfl⟩, dataRead_palette, dataRead_buffered, ?ctrl, rfl, rfl, rfl,
    rfl, ?scroll, ?addr, rfl⟩
  case writeOnly => rcases hr with rfl | rfl | rfl | rfl | rfl <;> exact ⟨rfl, rfl⟩
  case ctrl => rw [beq_false]; rfl
  case scroll => rfl
  case addr =>
    rw [← addr_firstWrite]
    rfl

/-! ## The controller, R360 and R361 -/

/-- Unstrobed, k reads from index 0 leave the index at k, or past the last button. -/
theorem iterate_afterRead {c : Controller} (hstrobe : c.strobe = false) (hindex : c.index = 0) (k : Nat) :
    Nat.iterate Controller.afterRead k c = { c with index := min k 8 } := by
  induction k with
  | zero => rw [Function.iterate_zero, id, Nat.zero_min, ← hindex]
  | succ k ih =>
    rw [Function.iterate_succ_apply', ih, Controller.afterRead, hstrobe, if_neg Bool.false_ne_true]
    by_cases hk : k < 8
    · rw [if_neg (by dsimp only; omega), Nat.min_eq_left (by omega), Nat.min_eq_left hk]
    · rw [if_pos (by dsimp only; omega), Nat.min_eq_right (by omega), Nat.min_eq_right (by omega)]

/-- Settles O46: after a strobe the index is 0 and counts the reads. -/
theorem controllerShiftsButtons : Obligations.ControllerShiftsButtons := by
  refine ⟨fun c => ⟨?strobed, ?past, ?shifting, fun v => rfl⟩, fun c v w k hv hw => ?reads⟩
  case strobed => intro h; simp [Controller.read, Controller.afterRead, h]
  case past => intro h hi; simp [Controller.read, Controller.afterRead, h, hi]
  case shifting => intro h hi; simp [Controller.read, Controller.afterRead, h, show ¬c.index > 7 by omega]
  case reads =>
    have hstrobed : (c.write v).write w = { c with strobe := false, index := 0 } := by
      simp only [Controller.write, hv, hw, if_true, Bool.false_eq_true, if_false]
    rw [hstrobed, iterate_afterRead rfl rfl, Controller.read, if_neg Bool.false_ne_true]
    by_cases hk : k < 8
    · rw [if_neg (by dsimp only; omega), if_pos hk, Nat.min_eq_left (by omega)]
      rfl
    · rw [if_pos (by dsimp only; omega), if_neg hk]
      rfl

/-! ## The tick, R340 to R343 -/

/-- The first part of the tick, with the two bits a frame's end clears written as a mask (R342). -/
theorem advance_eq (p : Ppu) : p.advance =
    if p.dot + 1 = 341 then
      (if p.scanline + 1 = 261 then { p with dot := 0, scanline := -1, status := p.status &&& 0x3F#8 }
       else { p with dot := 0, scanline := p.scanline + 1 })
    else { p with dot := p.dot + 1 } := by
  have cleared : setBit (setBit p.status bitVBlank false) bitSpriteZeroHit false = p.status &&& 0x3F#8 :=
    BitVec.and_assoc p.status _ _
  rw [Ppu.advance, cleared]
  rfl

/-- What the oracle draws, with the bits it sets written as a mask (R343). -/
theorem renderDraw_eq (draws : List RenderDraw) (p : Ppu) :
    let o := oracleAt draws p.scanline p.dot
    p.renderDraw draws =
      if 0 ≤ p.scanline ∧ p.scanline ≤ 239 then
        { p with status := p.status ||| (if o.1 then 0x40#8 else 0#8) ||| (if o.2 then 0x20#8 else 0#8) }
      else p := by
  intro o
  have hit (st : Byte) : setBit st bitSpriteZeroHit true = st ||| 0x40#8 := rfl
  have overflow (st : Byte) : setBit st bitSpriteOverflow true = st ||| 0x20#8 := rfl
  have drawn : (if o.2 then setBit (if o.1 then setBit p.status bitSpriteZeroHit true else p.status)
        bitSpriteOverflow true else if o.1 then setBit p.status bitSpriteZeroHit true else p.status) =
      p.status ||| (if o.1 then 0x40#8 else 0#8) ||| (if o.2 then 0x20#8 else 0#8) := by
    cases o.1 <;> cases o.2 <;> simp [hit, overflow]
  rw [← drawn]
  rfl

/-- A list with one draw for each of some raster positions, answering as an oracle does there. -/
def drawsOf (f : Int → Nat → Bool × Bool) (positions : List (Int × Nat)) : List RenderDraw :=
  positions.map fun e =>
    { scanline := e.1, dot := e.2, hit := (f e.1 e.2).1, overflow := (f e.1 e.2).2 }

theorem oracleAt_drawsOf (f : Int → Nat → Bool × Bool) {positions : List (Int × Nat)} {scanline : Int} {dot : Nat}
    (h : (scanline, dot) ∈ positions) : oracleAt (drawsOf f positions) scanline dot = f scanline dot := by
  induction positions with
  | nil => cases h
  | cons e rest ih =>
    rw [drawsOf, List.map_cons, oracleAt]
    split
    case isTrue he =>
      obtain ⟨rfl, rfl⟩ := he
      rfl
    case isFalse he =>
      refine ih ((List.mem_cons.mp h).resolve_left ?_)
      rintro rfl
      exact he ⟨rfl, rfl⟩

/-- The raster positions of the visible scanlines. -/
def visibleDots : List (Int × Nat) :=
  (List.range 240 ×ˢ List.range 341).map fun e => ((e.1 : Int), e.2)

theorem mem_visibleDots {scanline : Int} {dot : Nat} (lo : 0 ≤ scanline) (hi : scanline ≤ 239) (hd : dot ≤ 340) :
    (scanline, dot) ∈ visibleDots := by
  refine List.mem_map.mpr ⟨(scanline.toNat, dot), List.mem_product.mpr ⟨?_, ?_⟩, ?_⟩
  · rw [List.mem_range]; omega
  · rw [List.mem_range]; omega
  · rw [Int.toNat_of_nonneg lo]

/-- Settles O47: the three parts of the tick in order, and one draw for each visible dot. -/
theorem ppuTickAdvancesThenChecks : Obligations.PpuTickAdvancesThenChecks := by
  refine ⟨fun draws p => ?tick, fun f => ⟨drawsOf f visibleDots, fun scanline dot lo hi hd =>
    oracleAt_drawsOf f (mem_visibleDots lo hi hd)⟩⟩
  case tick =>
    intro p1 p2 o
    have hadvance : p.advance = p1 := advance_eq p
    have hvblank : p1.vblankStart = p2 := rfl
    exact ⟨by rw [Ppu.tick, hadvance, hvblank, renderDraw_eq], tickCompletesFrame_iff p⟩

end Sys2Proof.Machine
end

section
/-!
PROOF. BIT, the NOPs and the unofficial instructions (spec/48_bit_nop.md R260, R261, spec/49_unofficial.md R270 to
R280). BIT and LAX are one read of M, SAX is one store, and the six combined instructions are one read-modify-write each
(`exec_of_isRead`, `exec_of_isStore`, `modifiesTo_of_isModify`); a NOP with an operand is at most the read that
NOP_READS_OPERAND asks for (`exec_of_nop`).
-/

open Sys2Proof.Rules

namespace Sys2Proof.Machine

/-! ## BIT and the official NOP, R260 and R261 -/

/-- R260, written out, is the model's bit test: only P moves. -/
theorem bit_eq (t : State) (m : Byte) : t.bit m =
    { t with p := setBit (setBit (setBit t.p 1 (t.a &&& m == 0#8)) 6 (m.getLsbD 6)) 7 (m.getLsbD 7) } := rfl

/-- Settles O33: BIT tests the one read of M against A, which the read leaves with P; NOP has no effect to refuse. -/
theorem bitTestsAndOfficialNop : Obligations.BitTestsAndOfficialNop := by
  refine ⟨hasEncodings_of_columns (by decide), rfl, rfl, fun i s hs hop => ?bit, fun s hs => impliedInstr_next 2 id hs⟩
  case bit =>
    rw [← (loadOperand_frame i.operand s).a, ← (loadOperand_frame i.operand s).p,
      exec_of_isRead (f := State.bit) (fun _ _ _ => rfl) hop hs (fun _ _ => rfl) fun _ _ => rfl, bit_eq]

/-! ## The combined instructions, R270 to R277 -/

/-- SAX stores A & X, which the mode's own reads leave (R271). -/
theorem saxValue_resolve (o : Operand) (s : State) : (resolve o s).st.saxValue = s.saxValue := by
  rw [State.saxValue, (resolve_frame o s).a, (resolve_frame o s).x, State.saxValue]

/-- Settles O34: DCP and ISB write v - 1 and v + 1 whatever the read did to the state, and then use the byte. -/
theorem laxSaxDcpIsbCombine : Obligations.LaxSaxDcpIsbCombine := by
  refine ⟨hasEncodings_of_columns (by decide), hasEncodings_of_columns (by decide),
    hasEncodings_of_columns (by decide), hasEncodings_of_columns (by decide), fun i s hs => ?_⟩
  refine ⟨fun h => ?lax, fun h => ?sax, fun h => ?dcp, fun h => ?isb⟩
  case lax =>
    rw [← (loadOperand_frame i.operand s).p]
    exact exec_of_isRead (f := State.lax) (fun _ _ _ => rfl) h hs (fun _ _ => rfl) fun _ _ => rfl
  case sax =>
    obtain ⟨ea, hea⟩ := exists_ea_of_writesBack (i := i) (by rw [h]; rfl) (by simp only [writesA, h]) s
    exact ⟨ea, hea, exec_of_isStore (v := State.saxValue) (fun _ _ _ => rfl) h hs (saxValue_resolve _ s) hea⟩
  case dcp =>
    exact modifiesTo_of_isModify (g := State.dcpResult) (f := State.dcpAfter) (fun _ _ _ => rfl) h rfl hs
      (fun _ => rfl) (fun _ _ _ => rfl) fun _ _ _ => rfl
  case isb =>
    exact modifiesTo_of_isModify (g := State.isbResult) (f := State.isbAfter) (fun _ _ _ => rfl) h rfl hs
      (fun _ => rfl) (fun _ _ _ => rfl) fun _ _ _ => rfl

/-- Settles O35: the shifts take nothing from the state, and the rotates the C that the one read of M left; what follows
works on the A and P left by the write. -/
theorem shiftAndLogicCombine : Obligations.ShiftAndLogicCombine := by
  refine ⟨hasEncodings_of_columns (by decide), hasEncodings_of_columns (by decide),
    hasEncodings_of_columns (by decide), hasEncodings_of_columns (by decide), fun i s hs => ?_⟩
  have oldCarry : (loadOperand i.operand s).st.flag bitC = s.p.getLsbD 0 := loadOperand_flag i.operand s bitC
  refine ⟨fun h => ?slo, fun h => ?rla, fun h => ?sre, fun h => ?rra⟩
  case slo =>
    exact modifiesTo_of_isModify (g := State.sloResult) (f := State.sloAfter) (fun _ _ _ => rfl) h rfl hs
      (fun _ => rfl) (fun _ _ _ => rfl) fun _ _ _ => rfl
  case rla =>
    exact modifiesTo_of_isModify (g := State.rlaResult) (f := State.rlaAfter) (fun _ _ _ => rfl) h rfl hs
      (fun v => congrArg (rolResult v) oldCarry) (fun _ _ _ => rfl) fun _ _ _ => rfl
  case sre =>
    exact modifiesTo_of_isModify (g := State.sreResult) (f := State.sreAfter) (fun _ _ _ => rfl) h rfl hs
      (fun _ => rfl) (fun _ _ _ => rfl) fun _ _ _ => rfl
  case rra =>
    exact modifiesTo_of_isModify (g := State.rraResult) (f := State.rraAfter) (fun _ _ _ => rfl) h rfl hs
      (fun v => congrArg (rorResult v) oldCarry) (fun _ _ _ => rfl) fun _ _ _ => rfl

/-! ## The NOPs, R261 and R278 to R280 -/

/-- Of the modes only Indirect reads outside the zero page, so no other moves the state (R140). -/
theorem resolve_st {o : Operand} (h : o.mode ≠ .indirect) (s : State) : (resolve o s).st = s := by
  cases o
  case indirect => exact absurd rfl h
  case indexedIndirectX | indirectIndexedY => exact afterReadPair_zext s _ _
  all_goals rfl

/-- No NOP is in Accumulator or Indirect mode (R124). -/
theorem mode_of_nop {i : Instr} (h : i.operation = .nop) : i.mode ≠ .accumulator ∧ i.mode ≠ .indirect := by
  have table : (i.operation == .nop && (i.mode == .accumulator || i.mode == .indirect)) = false := by
    cases i <;> rfl
  simpa [h] using table

/-- Where no access can refuse a NOP runs, and its operand is at most read (R278 to R280). -/
theorem exec_of_nop {i : Instr} (hop : i.operation = .nop) {s : State} (hs : s.Ready) :
    let r := resolve i.operand s
    exec i s = .next { (if i.mode != .implied && i.mode != .immediate then s.afterNopRead r.ea else s) with
      cyc := s.cyc + i.cycles r.crossed } := by
  intro r
  have hframe : ReadFrame s (if i.mode != .implied && i.mode != .immediate then s.afterNopRead r.ea else s) := by
    split
    · exact afterNopRead_frame s r.ea
    · exact ReadFrame.refl s
  have hst : r.st = s := resolve_st (mode_of_nop hop).2 s
  have hrun : exec i s = finish ((if i.mode != .implied && i.mode != .immediate then r.st.afterNopRead r.ea
      else r.st).addCycles (i.cycles r.crossed)) := by
    rw [exec_eq, hop, Instr.cycles, hop]
    rfl
  rw [hrun, hst, finish_addCycles ((hframe.refused hs.2).trans hs.1), hframe.cyc]

/-- Settles O36: an implied or immediate NOP reads nothing, and a memory form has an address to read or not. -/
theorem unofficialNopsDiscardTheirOperand : Obligations.UnofficialNopsDiscardTheirOperand := by
  refine ⟨hasEncodings_of_columns (by decide), fun i s hs hop => ⟨fun hm => ?plain, fun himplied himmediate => ?memory⟩⟩
  case plain =>
    have hplain : (i.mode != .implied && i.mode != .immediate) = false := by
      rcases hm with hm | hm <;> rw [hm] <;> rfl
    rw [exec_of_nop hop hs, hplain]
    rfl
  case memory =>
    have hmemory : (i.mode != .implied && i.mode != .immediate) = true := by simp [himplied, himmediate]
    obtain ⟨ea, hea⟩ := resolve_ea i.operand s (fun ho => himplied (congrArg Operand.mode ho))
      fun ho => (mode_of_nop hop).1 (congrArg Operand.mode ho)
    refine ⟨ea, hea, ?_⟩
    rw [exec_of_nop hop hs, hmemory, hea]
    rfl

end Sys2Proof.Machine
end
